-- ==== Sys2Proof/Word.lean ====
section
/-! DEFINITION. The bit vectors of the engine: every value is an unsigned bit vector of a stated width
(`00_scope.md` R12), bit 0 the least significant. -/

namespace Sys2Proof

/-- `u32`: hash, schedule and working values, the length and the counters (R8 `WORD_BITS`, R10). -/
abbrev Word := BitVec 32

/-- `u8`: one byte of the message or of the block buffer. -/
abbrev Byte := BitVec 8

/-- The control word `CW = (PHASE, T)`, 11 bits (`30_encoding.md` R91). -/
abbrev ControlWord := BitVec 11

/-- The host transaction word `(WR, IDX, DATA)`, 37 bits (`30_encoding.md` R96). -/
abbrev HostWord := BitVec 37

/-- The 4-bit phase code (`10_state.md` R29). -/
abbrev PhaseCode := BitVec 4

/-- The 7-bit word or round index `T` (`10_state.md` R30). -/
abbrev Index := BitVec 7

end Sys2Proof
end

