-- ==== Sys2Proof/Config.lean ====
section
/-! DEFINITION. What the spec leaves open for a model to take as a parameter or as a draw: constants with no
body, so that no proof can see their value (`00_scope.md` R11, R14). -/

namespace Sys2Proof

/-- `unspecified(32)` (`00_scope.md` R14): the n-th draw of a 32-bit value the hardware does not define.
The step supplies `State.draws` as n and advances it (log 4). -/
opaque Config.freeWord : Nat → Word

/-- `unspecified(8)`: the n-th draw of a byte, used for the block buffer when `rst` is asserted (log 6). -/
opaque Config.freeByte : Nat → Byte

/-- The message memory `M` is a total function the model is given (`00_scope.md` R11, `93` U7): the byte the
platform maps at a message offset at which nothing has been placed (`70_reset_and_hazards.md` R238; log 8). -/
opaque Config.platformByte : Nat → Byte

/-- The two kinds of reset input (`70_reset_and_hazards.md` R230). -/
inductive ResetKind where
  | synchronous
  | asynchronous
  deriving DecidableEq, Repr, Inhabited

/-- `RESET_KIND`, left `OPEN` by the spec; no rule depends on it (R11, R230; log 13). -/
opaque Config.resetKind : ResetKind

end Sys2Proof
end

