-- ==== Sys2Proof/Syntax.lean ====
section
/-! DEFINITION. The instructions: one constructor per mnemonic of spec/opcode_table.json, the engine's
control words first (`30_encoding.md` R93), then the host's register transactions (R97). -/

namespace Sys2Proof

/-- A micro-operation, a halt state, or a host transaction. An index `t` is the control word's `T`, used as
it is (R101). A host read carries no data (R96), nor do `START` and `CNOP`, whose `DATA[31:1]` is ignored
(R98); the writes carry their data even where it is without effect (R103). -/
inductive Instr where
  /-- `HLT.IDLE` (`43_sequencer_and_host.md` R180). -/
  | hltIdle
  /-- `PAD` (`40_padding.md` R120). -/
  | pad
  /-- `LDW t` (`41_schedule.md` R140). -/
  | ldw (t : Index)
  /-- `EXP t` (`41_schedule.md` R141). -/
  | exp (t : Index)
  /-- `SEED` (`42_compression.md` R150). -/
  | seed
  /-- `RND.CH t` (`42_compression.md` R152). -/
  | rndCh (t : Index)
  /-- `RND.P1 t` (`42_compression.md` R153). -/
  | rndP1 (t : Index)
  /-- `RND.MAJ t` (`42_compression.md` R154). -/
  | rndMaj (t : Index)
  /-- `RND.P2 t` (`42_compression.md` R155). -/
  | rndP2 (t : Index)
  /-- `ADDH` (`42_compression.md` R156). -/
  | addh
  /-- `HLT.DONE` (`43_sequencer_and_host.md` R181). -/
  | hltDone
  /-- `HLT.FAIL` (`43_sequencer_and_host.md` R182). -/
  | hltFail
  /-- `START` (`43_sequencer_and_host.md` R171). -/
  | start
  /-- `CNOP` (`43_sequencer_and_host.md` R172). -/
  | cnop
  /-- `WR.STATUS v` (`43_sequencer_and_host.md` R179). -/
  | wrStatus (v : Word)
  /-- `WR.LEN v` (`43_sequencer_and_host.md` R173). -/
  | wrLen (v : Word)
  /-- `WR.BLKCNT v` (R179). -/
  | wrBlkcnt (v : Word)
  /-- `WR.H0 v` (R179). -/
  | wrH0 (v : Word)
  /-- `WR.H1 v` (R179). -/
  | wrH1 (v : Word)
  /-- `WR.H2 v` (R179). -/
  | wrH2 (v : Word)
  /-- `WR.H3 v` (R179). -/
  | wrH3 (v : Word)
  /-- `WR.H4 v` (R179). -/
  | wrH4 (v : Word)
  /-- `WR.RSVD idx, v` (R179): a reserved slot, `idx` in 9 to 15. -/
  | wrRsvd (idx : BitVec 4) (v : Word)
  /-- `RD.CTRL` (R178). -/
  | rdCtrl
  /-- `RD.STATUS` (R174). -/
  | rdStatus
  /-- `RD.LEN` (R175). -/
  | rdLen
  /-- `RD.BLKCNT` (R176). -/
  | rdBlkcnt
  /-- `RD.H0` (R177). -/
  | rdH0
  /-- `RD.H1` (R177). -/
  | rdH1
  /-- `RD.H2` (R177). -/
  | rdH2
  /-- `RD.H3` (R177). -/
  | rdH3
  /-- `RD.H4` (R177). -/
  | rdH4
  /-- `RD.RSVD idx` (R179): a reserved slot, `idx` in 9 to 15. -/
  | rdRsvd (idx : BitVec 4)
  deriving DecidableEq, Repr

/-- The spelling of spec/opcode_table.json and of `30_encoding.md` R103. -/
def Instr.mnemonic : Instr → String
  | .hltIdle => "HLT.IDLE"
  | .pad => "PAD"
  | .ldw _ => "LDW"
  | .exp _ => "EXP"
  | .seed => "SEED"
  | .rndCh _ => "RND.CH"
  | .rndP1 _ => "RND.P1"
  | .rndMaj _ => "RND.MAJ"
  | .rndP2 _ => "RND.P2"
  | .addh => "ADDH"
  | .hltDone => "HLT.DONE"
  | .hltFail => "HLT.FAIL"
  | .start => "START"
  | .cnop => "CNOP"
  | .wrStatus _ => "WR.STATUS"
  | .wrLen _ => "WR.LEN"
  | .wrBlkcnt _ => "WR.BLKCNT"
  | .wrH0 _ => "WR.H0"
  | .wrH1 _ => "WR.H1"
  | .wrH2 _ => "WR.H2"
  | .wrH3 _ => "WR.H3"
  | .wrH4 _ => "WR.H4"
  | .wrRsvd _ _ => "WR.RSVD"
  | .rdCtrl => "RD.CTRL"
  | .rdStatus => "RD.STATUS"
  | .rdLen => "RD.LEN"
  | .rdBlkcnt => "RD.BLKCNT"
  | .rdH0 => "RD.H0"
  | .rdH1 => "RD.H1"
  | .rdH2 => "RD.H2"
  | .rdH3 => "RD.H3"
  | .rdH4 => "RD.H4"
  | .rdRsvd _ => "RD.RSVD"

/-- The engine's own instructions, format `U`; the others are host transactions, format `H` (R90). -/
def Instr.isEngine : Instr → Bool
  | .hltIdle | .pad | .ldw _ | .exp _ | .seed | .rndCh _ | .rndP1 _ | .rndMaj _ | .rndP2 _ | .addh
  | .hltDone | .hltFail => true
  | .start | .cnop | .wrStatus _ | .wrLen _ | .wrBlkcnt _ | .wrH0 _ | .wrH1 _ | .wrH2 _ | .wrH3 _ | .wrH4 _
  | .wrRsvd _ _ | .rdCtrl | .rdStatus | .rdLen | .rdBlkcnt | .rdH0 | .rdH1 | .rdH2 | .rdH3 | .rdH4
  | .rdRsvd _ => false

end Sys2Proof
end

