-- ==== Sys2Proof/WellFormed.lean ====
section
/-! DEFINITION. Which instructions have a word: the index ranges of `30_encoding.md` R93 and the reserved
slots of R97. -/

namespace Sys2Proof

/-- `lo <= t <= hi`, unsigned. -/
def indexIn (lo hi : Nat) (t : Index) : Bool := decide (lo ≤ t.toNat) && decide (t.toNat ≤ hi)

/-- Slots 9 to 15 of the register space are reserved (`20_memory.md` R68). -/
def reservedSlot (idx : BitVec 4) : Bool := decide (9 ≤ idx.toNat)

/-- The check, as a Bool. -/
def Instr.wellFormed : Instr → Bool
  | .ldw t => indexIn 0 15 t
  | .exp t => indexIn 16 79 t
  | .rndCh t => indexIn 0 19 t
  | .rndP1 t => indexIn 20 39 t
  | .rndMaj t => indexIn 40 59 t
  | .rndP2 t => indexIn 60 79 t
  | .wrRsvd idx _ => reservedSlot idx
  | .rdRsvd idx => reservedSlot idx
  | .hltIdle | .pad | .seed | .addh | .hltDone | .hltFail => true
  | .start | .cnop | .wrStatus _ | .wrLen _ | .wrBlkcnt _ | .wrH0 _ | .wrH1 _ | .wrH2 _ | .wrH3 _ | .wrH4 _ => true
  | .rdCtrl | .rdStatus | .rdLen | .rdBlkcnt | .rdH0 | .rdH1 | .rdH2 | .rdH3 | .rdH4 => true

/-- The instruction has an encoding. -/
abbrev WellFormed (i : Instr) : Prop := i.wellFormed = true

end Sys2Proof
end

