-- ==== Sys2Proof/Decode.lean ====
section
/-! DEFINITION. The two decoders, total over all words (`30_encoding.md` R93, R97), and the encoder (R105). -/

namespace Sys2Proof

/-- A word that selects an instruction: the control word the sequencer holds, or a transaction word the host
presents (`30_encoding.md` R90). Neither is stored in a memory (`20_memory.md` R74). -/
inductive Fetched where
  | control (cw : ControlWord)
  | host (tw : HostWord)
  deriving DecidableEq, Repr

/-- Why a word is rejected. Host words are never rejected (R102). -/
inductive DecodeError where
  /-- A reserved control word (R95). -/
  | reservedControlWord (cw : ControlWord)
  deriving DecidableEq, Repr

/-! ### Phase codes (R92) -/

abbrev phaseIdle : PhaseCode := 0x0
abbrev phasePad : PhaseCode := 0x1
abbrev phaseLdw : PhaseCode := 0x2
abbrev phaseExp : PhaseCode := 0x3
abbrev phaseSeed : PhaseCode := 0x4
abbrev phaseRnd : PhaseCode := 0x5
abbrev phaseAddh : PhaseCode := 0x6
abbrev phaseDone : PhaseCode := 0x7
abbrev phaseFail : PhaseCode := 0x8

/-! ### Fields -/

/-- `CW = 128 * PHASE + T` (R91). -/
def mkControlWord (phase : PhaseCode) (t : Index) : ControlWord := phase ++ t

/-- `CW[10:7]` (R91). -/
def cwPhase (cw : ControlWord) : PhaseCode := cw.extractLsb' 7 4

/-- `CW[6:0]` (R91). -/
def cwIndex (cw : ControlWord) : Index := cw.extractLsb' 0 7

/-- `{WR, IDX, DATA}` (R96). -/
def mkHostWord (wr : BitVec 1) (idx : BitVec 4) (data : Word) : HostWord := wr ++ idx ++ data

/-- Bit 36 (R96). -/
def hwWrite (tw : HostWord) : BitVec 1 := tw.extractLsb' 36 1

/-- Bits 35 to 32 (R96). -/
def hwIdx (tw : HostWord) : BitVec 4 := tw.extractLsb' 32 4

/-- Bits 31 to 0 (R96). -/
def hwData (tw : HostWord) : Word := tw.extractLsb' 0 32

/-- `CTRL[0]`, the `START` command bit (R98). -/
def ctrlStart (data : Word) : Bool := data.getLsbD 0

/-! ### Register indices (`20_memory.md` R68) -/

abbrev idxCtrl : BitVec 4 := 0
abbrev idxStatus : BitVec 4 := 1
abbrev idxLen : BitVec 4 := 2
abbrev idxBlkcnt : BitVec 4 := 3
abbrev idxH0 : BitVec 4 := 4
abbrev idxH1 : BitVec 4 := 5
abbrev idxH2 : BitVec 4 := 6
abbrev idxH3 : BitVec 4 := 7
abbrev idxH4 : BitVec 4 := 8

/-! ### Decoders -/

/-- The four `RND` variants share a phase code and are told apart by `seg = floor(T / 20)` (R94); `none` for
`T > 79` (R95). -/
def decodeRound (t : Index) : Option Instr :=
  match t.toNat / 20 with
  | 0 => some (.rndCh t)
  | 1 => some (.rndP1 t)
  | 2 => some (.rndMaj t)
  | 3 => some (.rndP2 t)
  | _ => none

/-- The row of R93 for a control word, `none` if the word is reserved (R95). -/
def decodeControl? (cw : ControlWord) : Option Instr :=
  let phase := cwPhase cw
  let t := cwIndex cw
  if phase = phaseIdle then if t = 0 then some .hltIdle else none
  else if phase = phasePad then if t = 0 then some .pad else none
  else if phase = phaseLdw then if indexIn 0 15 t then some (.ldw t) else none
  else if phase = phaseExp then if indexIn 16 79 t then some (.exp t) else none
  else if phase = phaseSeed then if t = 0 then some .seed else none
  else if phase = phaseRnd then decodeRound t
  else if phase = phaseAddh then if t = 0 then some .addh else none
  else if phase = phaseDone then if t = 0 then some .hltDone else none
  else if phase = phaseFail then if t = 0 then some .hltFail else none
  else none

/-- Decode of a control word, total, rejecting by name (R93, R95). -/
def decodeControl (cw : ControlWord) : Except DecodeError Instr :=
  match decodeControl? cw with
  | some i => .ok i
  | none => .error (.reservedControlWord cw)

/-- Decode of a write transaction (R97, `WR = 1`). -/
def decodeWrite (idx : BitVec 4) (data : Word) : Instr :=
  if idx = idxCtrl then if ctrlStart data then .start else .cnop
  else if idx = idxStatus then .wrStatus data
  else if idx = idxLen then .wrLen data
  else if idx = idxBlkcnt then .wrBlkcnt data
  else if idx = idxH0 then .wrH0 data
  else if idx = idxH1 then .wrH1 data
  else if idx = idxH2 then .wrH2 data
  else if idx = idxH3 then .wrH3 data
  else if idx = idxH4 then .wrH4 data
  else .wrRsvd idx data

/-- Decode of a read transaction (R97, `WR = 0`); `DATA` is ignored (R96). -/
def decodeRead (idx : BitVec 4) : Instr :=
  if idx = idxCtrl then .rdCtrl
  else if idx = idxStatus then .rdStatus
  else if idx = idxLen then .rdLen
  else if idx = idxBlkcnt then .rdBlkcnt
  else if idx = idxH0 then .rdH0
  else if idx = idxH1 then .rdH1
  else if idx = idxH2 then .rdH2
  else if idx = idxH3 then .rdH3
  else if idx = idxH4 then .rdH4
  else .rdRsvd idx

/-- Decode of a host word, total over all 2^37 words (R97). -/
def decodeHost (tw : HostWord) : Instr :=
  if hwWrite tw = 1 then decodeWrite (hwIdx tw) (hwData tw) else decodeRead (hwIdx tw)

/-- The decoder. -/
def decode : Fetched → Except DecodeError Instr
  | .control cw => decodeControl cw
  | .host tw => .ok (decodeHost tw)

/-! ### Encoder (R105) -/

/-- The word of an instruction: `DATA` is written as 0 on a read (R96), `START` and `CNOP` as R105 gives them. -/
def encode : Instr → Fetched
  | .hltIdle => .control (mkControlWord phaseIdle 0)
  | .pad => .control (mkControlWord phasePad 0)
  | .ldw t => .control (mkControlWord phaseLdw t)
  | .exp t => .control (mkControlWord phaseExp t)
  | .seed => .control (mkControlWord phaseSeed 0)
  | .rndCh t => .control (mkControlWord phaseRnd t)
  | .rndP1 t => .control (mkControlWord phaseRnd t)
  | .rndMaj t => .control (mkControlWord phaseRnd t)
  | .rndP2 t => .control (mkControlWord phaseRnd t)
  | .addh => .control (mkControlWord phaseAddh 0)
  | .hltDone => .control (mkControlWord phaseDone 0)
  | .hltFail => .control (mkControlWord phaseFail 0)
  | .start => .host (mkHostWord 1 idxCtrl 1)
  | .cnop => .host (mkHostWord 1 idxCtrl 0)
  | .wrStatus v => .host (mkHostWord 1 idxStatus v)
  | .wrLen v => .host (mkHostWord 1 idxLen v)
  | .wrBlkcnt v => .host (mkHostWord 1 idxBlkcnt v)
  | .wrH0 v => .host (mkHostWord 1 idxH0 v)
  | .wrH1 v => .host (mkHostWord 1 idxH1 v)
  | .wrH2 v => .host (mkHostWord 1 idxH2 v)
  | .wrH3 v => .host (mkHostWord 1 idxH3 v)
  | .wrH4 v => .host (mkHostWord 1 idxH4 v)
  | .wrRsvd idx v => .host (mkHostWord 1 idx v)
  | .rdCtrl => .host (mkHostWord 0 idxCtrl 0)
  | .rdStatus => .host (mkHostWord 0 idxStatus 0)
  | .rdLen => .host (mkHostWord 0 idxLen 0)
  | .rdBlkcnt => .host (mkHostWord 0 idxBlkcnt 0)
  | .rdH0 => .host (mkHostWord 0 idxH0 0)
  | .rdH1 => .host (mkHostWord 0 idxH1 0)
  | .rdH2 => .host (mkHostWord 0 idxH2 0)
  | .rdH3 => .host (mkHostWord 0 idxH3 0)
  | .rdH4 => .host (mkHostWord 0 idxH4 0)
  | .rdRsvd idx => .host (mkHostWord 0 idx 0)

/-! ### spec/opcode_table.json -/

/-- A row of spec/opcode_table.json: a word belongs to it when `word AND mask = match` (R105). -/
structure OpcodeRow where
  mnemonic : String
  width : Nat
  pattern : Nat
  mask : Nat
  deriving DecidableEq, Repr

/-- `word AND mask = match`, for a word of the row's format (11 bits for `U`, 37 for `H`). -/
def OpcodeRow.covers (row : OpcodeRow) (f : Fetched) : Bool :=
  match f with
  | .control cw => row.width == 11 && (cw.toNat &&& row.mask) == row.pattern
  | .host tw => row.width == 37 && (tw.toNat &&& row.mask) == row.pattern

/-- The table's 20 control-word rows, in its order. -/
def controlRows : List OpcodeRow := [
  ⟨"HLT.IDLE", 11, 0x000, 0x7FF⟩, ⟨"PAD", 11, 0x080, 0x7FF⟩, ⟨"LDW", 11, 0x100, 0x7F0⟩,
  ⟨"EXP", 11, 0x190, 0x7F0⟩, ⟨"EXP", 11, 0x1A0, 0x7E0⟩, ⟨"EXP", 11, 0x1C0, 0x7F0⟩,
  ⟨"SEED", 11, 0x200, 0x7FF⟩, ⟨"RND.CH", 11, 0x280, 0x7F0⟩, ⟨"RND.CH", 11, 0x290, 0x7FC⟩,
  ⟨"RND.P1", 11, 0x294, 0x7FC⟩, ⟨"RND.P1", 11, 0x298, 0x7F8⟩, ⟨"RND.P1", 11, 0x2A0, 0x7F8⟩,
  ⟨"RND.MAJ", 11, 0x2A8, 0x7F8⟩, ⟨"RND.MAJ", 11, 0x2B0, 0x7F8⟩, ⟨"RND.MAJ", 11, 0x2B8, 0x7FC⟩,
  ⟨"RND.P2", 11, 0x2BC, 0x7FC⟩, ⟨"RND.P2", 11, 0x2C0, 0x7F0⟩, ⟨"ADDH", 11, 0x300, 0x7FF⟩,
  ⟨"HLT.DONE", 11, 0x380, 0x7FF⟩, ⟨"HLT.FAIL", 11, 0x400, 0x7FF⟩]

/-- The table's 25 host-word rows, in its order. -/
def hostRows : List OpcodeRow := [
  ⟨"START", 37, 0x1000000001, 0x1F00000001⟩, ⟨"CNOP", 37, 0x1000000000, 0x1F00000001⟩,
  ⟨"WR.STATUS", 37, 0x1100000000, 0x1F00000000⟩, ⟨"WR.LEN", 37, 0x1200000000, 0x1F00000000⟩,
  ⟨"WR.BLKCNT", 37, 0x1300000000, 0x1F00000000⟩, ⟨"WR.H0", 37, 0x1400000000, 0x1F00000000⟩,
  ⟨"WR.H1", 37, 0x1500000000, 0x1F00000000⟩, ⟨"WR.H2", 37, 0x1600000000, 0x1F00000000⟩,
  ⟨"WR.H3", 37, 0x1700000000, 0x1F00000000⟩, ⟨"WR.H4", 37, 0x1800000000, 0x1F00000000⟩,
  ⟨"WR.RSVD", 37, 0x1900000000, 0x1F00000000⟩, ⟨"WR.RSVD", 37, 0x1A00000000, 0x1E00000000⟩,
  ⟨"WR.RSVD", 37, 0x1C00000000, 0x1C00000000⟩, ⟨"RD.CTRL", 37, 0x0000000000, 0x1F00000000⟩,
  ⟨"RD.STATUS", 37, 0x0100000000, 0x1F00000000⟩, ⟨"RD.LEN", 37, 0x0200000000, 0x1F00000000⟩,
  ⟨"RD.BLKCNT", 37, 0x0300000000, 0x1F00000000⟩, ⟨"RD.H0", 37, 0x0400000000, 0x1F00000000⟩,
  ⟨"RD.H1", 37, 0x0500000000, 0x1F00000000⟩, ⟨"RD.H2", 37, 0x0600000000, 0x1F00000000⟩,
  ⟨"RD.H3", 37, 0x0700000000, 0x1F00000000⟩, ⟨"RD.H4", 37, 0x0800000000, 0x1F00000000⟩,
  ⟨"RD.RSVD", 37, 0x0900000000, 0x1F00000000⟩, ⟨"RD.RSVD", 37, 0x0A00000000, 0x1E00000000⟩,
  ⟨"RD.RSVD", 37, 0x0C00000000, 0x1C00000000⟩]

/-- All 45 rows. -/
def opcodeRows : List OpcodeRow := controlRows ++ hostRows

/-! ### The host's numbering of table words -/

/-- The word whose bits are `w`, numbered as spec/opcode_table.json numbers them: rows of at most 16 bits are
control words (11 bits), wider ones host words (37 bits); `none` if `w` has bits above the word (log 16). -/
def tableWord (nbits w : Nat) : Option Fetched :=
  if nbits ≤ 16 then if w < 2 ^ 11 then some (.control (BitVec.ofNat 11 w)) else none
  else if w < 2 ^ 37 then some (.host (BitVec.ofNat 37 w)) else none

/-- What the decoder reads from a word of the opcode table, `none` where it refuses. -/
def decodeTableWord (nbits w : Nat) : Option Instr :=
  match tableWord nbits w with
  | none => none
  | some f =>
    match decode f with
    | .ok i => some i
    | .error _ => none

end Sys2Proof
end

