-- ==== Sys2Proof/Machine/State.lean ====
section
/-! DEFINITION. The state of one engine (`10_state.md` R20), of the message memory it reads and of the outside
world that drives it, as plain data; the reasons a step stops; the state after reset. -/

namespace Sys2Proof.Machine

open Sys2Proof

/-- The message memory: (offset, byte) pairs, offsets strictly rising and below 2^29 (`20_memory.md` R61).
An offset that is not listed holds no byte the host has placed (log 8). -/
abbrev Memory := List Host.Cell

/-- One move of the system. `43_sequencer_and_host.md` R183 fixes no order between engine steps and host
transactions; `State.agenda` holds the order as data (log 1). -/
inductive Turn where
  /-- The engine takes the step its control word names (R183 (a)). -/
  | engine
  /-- The host performs one register transaction (R183 (b), `30_encoding.md` R96). -/
  | host (tw : HostWord)
  /-- The owner of the message puts a byte at an offset (`20_memory.md` R61, R62; log 9). -/
  | message (offset : BitVec 29) (byte : Byte)
  /-- The level of pin `rst` becomes `asserted` (`70_reset_and_hazards.md` R230; log 7). -/
  | reset (asserted : Bool)
  deriving DecidableEq, Repr

/-- Why the machine stops with a fault. -/
inductive Fault where
  /-- The control word is reserved (`30_encoding.md` R95: "map every reserved control word to a fault"). Raised by
  the step's decode, and by the meaning of `LDW`, `EXP` and `RND.*` for an index outside the mnemonic's range. Safe. -/
  | reservedControlWord (cw : ControlWord)
  /-- A `PAD` would read a message offset at or above 2^29, which does not exist (`20_memory.md` R61). Raised by
  `PAD`; no reachable state does (R63). Safe. -/
  | messageOffsetOutOfSpace
  deriving DecidableEq, Repr

/-- Why a step is refused. -/
inductive Refusal where
  /-- The instruction has no meaning yet; raised by the dispatch only. Safe. -/
  | notModelled (mnemonic : String)
  /-- A byte below `LEN` was changed while `BUSY`: the run has no meaning (`20_memory.md` R62, U8). Raised by the
  step on a `message` turn. Safe. -/
  | messageChangedDuringRun (offset : BitVec 29)
  deriving DecidableEq, Repr

/-- The state. The first eleven items are the spec's (R20), under its names; `msg` is the message memory, a
parameter of a run (R11); the last four are the model's own. -/
structure State where
  /-- `H[0..4]`, the hash state (R21). -/
  h : Vector Word 5
  /-- `A` (R22). -/
  a : Word
  /-- `B` (R22). -/
  b : Word
  /-- `C` (R22). -/
  c : Word
  /-- `D` (R22). -/
  d : Word
  /-- `E` (R22). -/
  e : Word
  /-- `W[0..79]`, the word schedule (R23). -/
  w : Vector Word 80
  /-- `BLK[0..63]`, the block buffer (R24). -/
  blk : Vector Byte 64
  /-- `LEN`, the message length in bytes (R25). -/
  len : Word
  /-- `REM`, the remaining-length counter (R26). -/
  rem : Word
  /-- `OFF`, the offset of the first byte not yet copied (R27). -/
  off : Word
  /-- `T` (R30). -/
  t : Index
  /-- `PHASE` (R29). -/
  phase : PhaseCode
  /-- `FINAL`: false is MORE_DATA, true is FINAL (R31). -/
  finalFlag : Bool
  /-- `BLKCNT`, the number of compression calls (R28). -/
  blkcnt : Word
  /-- The message memory `M` (R11, R60). -/
  msg : Memory
  /-- The level of pin `rst` (R230; log 7). -/
  rst : Bool
  /-- The turns to come; where it is empty the engine moves (R183; log 1). -/
  agenda : List Turn
  /-- The values host reads have returned, newest first (R96, port `h_rdata` of R213; log 3). -/
  replies : List Word
  /-- How many free values have been drawn (R14; log 4). -/
  draws : Nat
  deriving DecidableEq, Repr

/-- The state after reset (`10_state.md` R39, `70_reset_and_hazards.md` R231): `PHASE = IDLE`, `T = 0`,
`FINAL = 0`, `LEN = 0`, `BLKCNT = 0`. `H`, `A..E`, `W`, `BLK`, `REM`, `OFF` are unspecified; here they are 0,
DESIGN CHOICE (log 5). Nothing is placed in the message memory, `rst` is released, the outside has queued nothing. -/
def State.reset : State where
  h := Vector.replicate 5 0
  a := 0
  b := 0
  c := 0
  d := 0
  e := 0
  w := Vector.replicate 80 0
  blk := Vector.replicate 64 0
  len := 0
  rem := 0
  off := 0
  t := 0
  phase := phaseIdle
  finalFlag := false
  blkcnt := 0
  msg := []
  rst := false
  agenda := []
  replies := []
  draws := 0

end Sys2Proof.Machine
end

