-- ==== Sys2Proof/Machine/Flags.lean ====
section
/-! DEFINITION. The flags the host sees, all functions of `PHASE` (`10_state.md` R33), the status word
(`30_encoding.md` R99) and the pins (`60_exceptions.md` R209). There are no arithmetic condition codes (R33). -/

namespace Sys2Proof.Machine

open Sys2Proof

/-- The document's RUNNING: PAD, LDW, EXP, SEED, RND, ADDH (`10_state.md` R29, R33). -/
def busyPhase (p : PhaseCode) : Bool :=
  p == phasePad || p == phaseLdw || p == phaseExp || p == phaseSeed || p == phaseRnd || p == phaseAddh

/-- `BUSY` (R33). -/
def busy (s : State) : Bool := busyPhase s.phase

/-- `DONE` (R33). -/
def done (s : State) : Bool := s.phase == phaseDone

/-- `ERR` (R33). -/
def err (s : State) : Bool := s.phase == phaseFail

/-- Three status bits above 29 zeros: `(29'b0, ERR, DONE, BUSY)` (`30_encoding.md` R99). -/
def packStatus (err done busy : Bool) : Word :=
  (0#29 ++ BitVec.ofBool err ++ BitVec.ofBool done ++ BitVec.ofBool busy : BitVec (29 + 1 + 1 + 1))

/-- `STATUS` at this instant (R99). -/
def statusWord (s : State) : Word := packStatus (err s) (done s) (busy s)

/-- Pin `busy` (`60_exceptions.md` R209). -/
def pinBusy (s : State) : Bool := busy s

/-- Pin `done` (R209). -/
def pinDone (s : State) : Bool := done s

/-- Pin `err` (R209). -/
def pinErr (s : State) : Bool := err s

/-- `PAD` case 3 appends the terminator if some bytes were left, or if the length is an exact multiple of 64:
`term = (r != 0) OR (LEN[5:0] = 0)` (`40_padding.md` R124). -/
def terminatorDue (r len : Word) : Bool := r != 0 || len.extractLsb' 0 6 == 0

/-- `LEN > MAXLEN`, unsigned, `MAXLEN = 0x1FFFFFFF` (`00_scope.md` R8, `60_exceptions.md` R201). -/
def lengthExceeded (len : Word) : Bool := decide (0x1FFFFFFF < len.toNat)

end Sys2Proof.Machine
end

