-- ==== Sys2Proof/Machine/Operands.lean ====
section
/-! DEFINITION. The 32-bit arithmetic of the datapath (`00_scope.md` R13, `42_compression.md` R157), the
constants wired into it (`30_encoding.md` R101), and the operand forms: words of `W`, bytes of `BLK`, the control
word, the bytes of the message. -/

namespace Sys2Proof.Machine

open Sys2Proof

/-! ### Arithmetic (R13) -/

/-- `(x + y) mod 2^32`, carry discarded. -/
def add32 (x y : Word) : Word := x + y

/-- `(x - y) mod 2^32`, used only where `x >= y`. -/
def sub32 (x y : Word) : Word := x - y

/-- `ROTL(n, x) = ((x << n) | (x >> (32 - n))) mod 2^32`, `0 < n < 32`. -/
def rotl (n : Nat) (x : Word) : Word := (x <<< n) ||| (x >>> (32 - n))

/-- `(b0, b1, b2, b3)`, the first byte the most significant (`20_memory.md` R66, `41_schedule.md` R140). -/
def bigEndian (b0 b1 b2 b3 : Byte) : Word := (b0 ++ b1 ++ b2 ++ b3 : BitVec (8 + 8 + 8 + 8))

/-! ### Constants -/

/-- `IV[0..4]` (`00_scope.md` R9). -/
def ivWords : Vector Word 5 := #v[0x67452301, 0xEFCDAB89, 0x98BADCFE, 0x10325476, 0xC3D2E1F0]

/-- `K[0]`, rounds 0 to 19 (R8). -/
def k0 : Word := 0x5A827999

/-- `K[1]`, rounds 20 to 39 (R8). -/
def k1 : Word := 0x6ED9EBA1

/-- `K[2]`, rounds 40 to 59 (R8). -/
def k2 : Word := 0x8F1BBCDC

/-- `K[3]`, rounds 60 to 79 (R8). -/
def k3 : Word := 0xCA62C1D6

/-- `TERMINATOR` (R8). -/
def terminator : Byte := 0x80

/-- The message space holds the offsets `0 .. 2^29 - 1` (`20_memory.md` R61). -/
def messageSpace : Nat := 2 ^ 29

/-! ### The round functions (`42_compression.md` R152 to R155) -/

/-- `F_0 = (B AND C) OR ((NOT B) AND D)` (R152). -/
def fCh (b c d : Word) : Word := (b &&& c) ||| (~~~b &&& d)

/-- `F_1 = B XOR C XOR D` (R153). -/
def fP1 (b c d : Word) : Word := b ^^^ c ^^^ d

/-- `F_2 = (B AND C) OR (B AND D) OR (C AND D)` (R154). -/
def fMaj (b c d : Word) : Word := (b &&& c) ||| (b &&& d) ||| (c &&& d)

/-- `F_3 = B XOR C XOR D`, the same function as `F_1` (R155). -/
def fP2 (b c d : Word) : Word := b ^^^ c ^^^ d

/-! ### Operand forms -/

/-- `pc = CW = (PHASE, T)` (`10_state.md` R32). -/
def controlWord (s : State) : ControlWord := mkControlWord s.phase s.t

/-- `W[i]`, `i` in 0 to 79. An index outside is never read (log 11). -/
def wordAt (w : Vector Word 80) (i : Nat) : Word := w[i]?.getD 0

/-- `BLK[i]`, `i` in 0 to 63. An index outside is never read (log 11). -/
def byteAt (blk : Vector Byte 64) (i : Nat) : Byte := blk[i]?.getD 0

/-- The big-endian word of `BLK[4t .. 4t+3]` (R140). -/
def blockWord (blk : Vector Byte 64) (t : Nat) : Word :=
  bigEndian (byteAt blk (4 * t)) (byteAt blk (4 * t + 1)) (byteAt blk (4 * t + 2)) (byteAt blk (4 * t + 3))

/-- `ROTL1(W[t-3] XOR W[t-8] XOR W[t-14] XOR W[t-16])` (R141). -/
def expandWord (w : Vector Word 80) (t : Nat) : Word :=
  rotl 1 (wordAt w (t - 3) ^^^ wordAt w (t - 8) ^^^ wordAt w (t - 14) ^^^ wordAt w (t - 16))

/-- `TMP = ROTL5(A) + f + E + K + W[t]`, modulo 2^32 (R151). -/
def roundTmp (a f e k wt : Word) : Word := add32 (add32 (add32 (add32 (rotl 5 a) f) e) k) wt

/-! ### The message memory as a map -/

/-- The byte placed at an offset, if any (log 8). -/
def Memory.read : Memory → Nat → Option Byte
  | [], _ => none
  | (x, v) :: m, off => if x = off then some v else Memory.read m off

/-- Put a byte at an offset, keeping the offsets strictly rising. -/
def Memory.write : Memory → Nat → Byte → Memory
  | [], off, v => [(off, v)]
  | (x, u) :: m, off, v =>
    if off < x then (off, v) :: (x, u) :: m
    else if off = x then (x, v) :: m
    else (x, u) :: Memory.write m off v

/-- All offsets of the list are above `lo` and rise strictly, and none reaches 2^29. -/
def Memory.risesAbove : Nat → Memory → Bool
  | _, [] => true
  | lo, (x, _) :: m => decide (lo < x) && decide (x < messageSpace) && Memory.risesAbove x m

/-- The canonical form: offsets strictly rising and below 2^29. An unlisted offset reads as no placed byte, so no
entry can equal what an unlisted offset reads as. -/
def Memory.wf : Memory → Bool
  | [] => true
  | (x, _) :: m => decide (x < messageSpace) && Memory.risesAbove x m

/-- `MemRead(MSG, off, 1)`, the byte `M(off)` (`20_memory.md` R61): what was placed there, else what the platform
maps there (log 8). Every read is answered (R72). -/
def messageByte (m : Memory) (off : Nat) : Byte :=
  match m.read off with
  | some v => v
  | none => Config.platformByte off

end Sys2Proof.Machine
end

