-- ==== Sys2Proof/Machine/Ops.lean ====
section
/-! DEFINITION. The named operations over the state: writing the control word, answering the host, drawing a
free value, beginning a run, TAKING THE EXCEPTION (and how FAIL is left), reset, and what the next turn presents. -/

namespace Sys2Proof.Machine

open Sys2Proof

/-- What a step answers. -/
abbrev Result := Host.Outcome State Fault Refusal

/-- `pc <- (P, t)` (`00_scope.md` R15). -/
def setPc (p : PhaseCode) (t : Index) (s : State) : State := { s with phase := p, t := t }

/-- `W[i] <- v`; `i` is in 0 to 79 wherever this is used (log 11). -/
def setWord (i : Nat) (v : Word) (s : State) : State := { s with w := s.w.setIfInBounds i v }

/-- Write `A..E` together (R14, `42_compression.md` R151). -/
def setWorking (a b c d e : Word) (s : State) : State := { s with a := a, b := b, c := c, d := d, e := e }

/-- Write `H[0..4]` together. -/
def setHash (h : Vector Word 5) (s : State) : State := { s with h := h }

/-- `LEN <- v` (`43_sequencer_and_host.md` R173). -/
def setLen (v : Word) (s : State) : State := { s with len := v }

/-- `BLKCNT <- BLKCNT + 1` (`42_compression.md` R156). -/
def countBlock (s : State) : State := { s with blkcnt := s.blkcnt + 1 }

/-- Put a byte into the message memory. -/
def setMessage (off : Nat) (v : Byte) (s : State) : State := { s with msg := s.msg.write off v }

/-- The level of pin `rst`. -/
def setRst (level : Bool) (s : State) : State := { s with rst := level }

/-- What every `PAD` writes: `BLK`, `OFF`, `REM`, `FINAL`, and `pc <- (LDW, 0)` (`40_padding.md` R127). -/
def setPadded (blk : Vector Byte 64) (off rem : Word) (final : Bool) (s : State) : State :=
  setPc phaseLdw 0 { s with blk := blk, off := off, rem := rem, finalFlag := final }

/-- Step the index within a phase, or go on to the next phase after the last index (`43` R170). -/
def advance (p : PhaseCode) (t : Index) (last : Nat) (p' : PhaseCode) (t' : Index) (s : State) : State :=
  if t.toNat < last then setPc p (t + 1) s else setPc p' t' s

/-- The fault of a reserved control word (`30_encoding.md` R95). -/
def reservedFault (p : PhaseCode) (t : Index) : Result := .fault (.reservedControlWord (mkControlWord p t))

/-- A host read returns `v` (`30_encoding.md` R96). -/
def reply (v : Word) (s : State) : State := { s with replies := v :: s.replies }

/-- A host read returns `unspecified(32)`, a fresh draw (`00_scope.md` R14, `43` R177; log 4). -/
def replyFree (s : State) : State := { reply (Config.freeWord s.draws) s with draws := s.draws + 1 }

/-- `RD.Hi`: `H[i]` if `DONE`, else a draw (`43_sequencer_and_host.md` R177). -/
def replyHash (i : Fin 5) (s : State) : State := if done s then reply s.h[i] s else replyFree s

/-- What every accepted START does first: `BLKCNT <- 0`, `FINAL <- 0` (`43` R171). -/
def acceptStart (s : State) : State := { s with blkcnt := 0, finalFlag := false }

/-- TAKING THE EXCEPTION: `raise LengthExceeded(LEN)` (`60_exceptions.md` R203): `PHASE <- FAIL`, `T <- 0`, and
nothing else; `LEN` keeps the refused length (R204). There is no return operation: FAIL is left by an accepted
START or by reset (R205). -/
def raiseLengthExceeded (s : State) : State := setPc phaseFail 0 s

/-- A run begins: `H <- IV`, `REM <- LEN`, `OFF <- 0`, `pc <- (PAD, 0)` (`43` R171). -/
def beginRun (s : State) : State := setPc phasePad 0 { s with h := ivWords, rem := s.len, off := 0 }

/-! ### Reset -/

/-- Effect of reset on the engine (`70_reset_and_hazards.md` R231, `10_state.md` R39): the unspecified registers
take free values, 156 draws in all (log 6). The message memory and the outside are not the engine's. -/
def applyReset (s : State) : State :=
  { s with
    h := Vector.ofFn fun i : Fin 5 => Config.freeWord (s.draws + i.val)
    a := Config.freeWord (s.draws + 5)
    b := Config.freeWord (s.draws + 6)
    c := Config.freeWord (s.draws + 7)
    d := Config.freeWord (s.draws + 8)
    e := Config.freeWord (s.draws + 9)
    w := Vector.ofFn fun i : Fin 80 => Config.freeWord (s.draws + 10 + i.val)
    blk := Vector.ofFn fun i : Fin 64 => Config.freeByte (s.draws + 90 + i.val)
    rem := Config.freeWord (s.draws + 154)
    off := Config.freeWord (s.draws + 155)
    len := 0
    t := 0
    phase := phaseIdle
    finalFlag := false
    blkcnt := 0
    draws := s.draws + 156 }

/-- A change of the level of `rst`: asserting it puts the engine in the reset state, releasing it lets the engine
go on from there (`70_reset_and_hazards.md` R230, R232; log 7). -/
def resetTurn (asserted : Bool) (s : State) : State :=
  if asserted then setRst true (applyReset s) else setRst false s

/-! ### The message's owner -/

/-- The owner puts a byte at an offset. From START until `BUSY` reads 0 no byte at offsets `0 .. LEN-1` may change
(`20_memory.md` R62): such a change is refused by name. A write that changes nothing is none (log 9). -/
def messageTurn (offset : BitVec 29) (byte : Byte) (s : State) : Result :=
  if busy s && decide (offset.toNat < s.len.toNat) && s.msg.read offset.toNat != some byte then
    .refused (.messageChangedDuringRun offset)
  else .next (setMessage offset.toNat byte s)

/-! ### What the next turn presents -/

/-- What a step has to carry out. -/
inductive Presented where
  | nothing
  | word (f : Fetched)
  | message (offset : BitVec 29) (byte : Byte)
  | reset (asserted : Bool)
  deriving DecidableEq, Repr

/-- The first turn of the agenda; the engine's where there is none (log 1). -/
def nextTurn (s : State) : Turn := s.agenda.head?.getD .engine

/-- The state with that turn used up. -/
def takeTurn (s : State) : State := { s with agenda := s.agenda.tail }

/-- While `rst` is asserted the engine executes nothing and accepts no host transaction (`70` R230). Otherwise an
engine turn presents the control word (`10_state.md` R32), a host turn its transaction word. -/
def present (s : State) : Presented :=
  match nextTurn s with
  | .engine => if s.rst then .nothing else .word (.control (controlWord s))
  | .host tw => if s.rst then .nothing else .word (.host tw)
  | .message offset byte => .message offset byte
  | .reset asserted => .reset asserted

/-- The fault of a rejected word (`30_encoding.md` R95). -/
def decodeFault : DecodeError → Fault
  | .reservedControlWord cw => .reservedControlWord cw

/-- Make `f` what the next step carries out, before the turns already queued (log 2). -/
def placeWord (f : Fetched) (s : State) : State :=
  match f with
  | .control cw =>
    { s with phase := cwPhase cw, t := cwIndex cw, rst := false, agenda := .engine :: s.agenda }
  | .host tw => { s with rst := false, agenda := .host tw :: s.agenda }

end Sys2Proof.Machine
end

