-- ==== Sys2Proof/Machine/Commands.lean ====
section
/-! DEFINITION. The host's writes (`43_sequencer_and_host.md` R171 to R173, R179). Only `START` and `WR.LEN` have
an effect, and only while the engine is not busy. -/

namespace Sys2Proof.Machine

open Sys2Proof

/-- `START` (R171). `BUSY` is tested first (`60_exceptions.md` R207): a START while busy is dropped. Otherwise
`LEN > MAXLEN` raises LengthExceeded, and any other length begins a run. -/
def execStart (s : State) : Result :=
  if busy s then .next s
  else if lengthExceeded s.len then .next (raiseLengthExceeded (acceptStart s))
  else .next (beginRun (acceptStart s))

/-- `CNOP` (R172): no effect. -/
def execCnop (s : State) : Result := .next s

/-- `WR.LEN v` (R173): any value is stored, unless busy. -/
def execWrLen (v : Word) (s : State) : Result := if busy s then .next s else .next (setLen v s)

/-- `WR.STATUS` (R179): no effect. -/
def execWrStatus (_v : Word) (s : State) : Result := .next s

/-- `WR.BLKCNT` (R179): no effect. -/
def execWrBlkcnt (_v : Word) (s : State) : Result := .next s

/-- `WR.H0` (R179): no effect. -/
def execWrH0 (_v : Word) (s : State) : Result := .next s

/-- `WR.H1` (R179): no effect. -/
def execWrH1 (_v : Word) (s : State) : Result := .next s

/-- `WR.H2` (R179): no effect. -/
def execWrH2 (_v : Word) (s : State) : Result := .next s

/-- `WR.H3` (R179): no effect. -/
def execWrH3 (_v : Word) (s : State) : Result := .next s

/-- `WR.H4` (R179): no effect. -/
def execWrH4 (_v : Word) (s : State) : Result := .next s

/-- `WR.RSVD` (R179): no effect. -/
def execWrRsvd (_idx : BitVec 4) (_v : Word) (s : State) : Result := .next s

end Sys2Proof.Machine
end

