-- ==== Sys2Proof/Machine/Compression.lean ====
section
/-! DEFINITION. The compression loop: `SEED`, the four `RND` variants and `ADDH` (`42_compression.md` R150 to R156). -/

namespace Sys2Proof.Machine

open Sys2Proof

/-- `SEED` (R150): `A..E <- H[0..4]`; then (RND, 0). -/
def execSeed (s : State) : Result :=
  .next (setPc phaseRnd 0 (setWorking s.h[0] s.h[1] s.h[2] s.h[3] s.h[4] s))

/-- The round update common to the four variants (R151), with the variant's `f` and `K`; all right-hand sides use
the values from before the step. Then (RND, t + 1), or (ADDH, 0) after 79. -/
def roundUpdate (f k : Word) (t : Index) (s : State) : State :=
  advance phaseRnd t 79 phaseAddh 0
    (setWorking (roundTmp s.a f s.e k (wordAt s.w t.toNat)) s.a (rotl 30 s.b) s.c s.d s)

/-- `RND.CH t` (R152). -/
def execRndCh (t : Index) (s : State) : Result :=
  if indexIn 0 19 t then .next (roundUpdate (fCh s.b s.c s.d) k0 t s) else reservedFault phaseRnd t

/-- `RND.P1 t` (R153). -/
def execRndP1 (t : Index) (s : State) : Result :=
  if indexIn 20 39 t then .next (roundUpdate (fP1 s.b s.c s.d) k1 t s) else reservedFault phaseRnd t

/-- `RND.MAJ t` (R154). -/
def execRndMaj (t : Index) (s : State) : Result :=
  if indexIn 40 59 t then .next (roundUpdate (fMaj s.b s.c s.d) k2 t s) else reservedFault phaseRnd t

/-- `RND.P2 t` (R155). -/
def execRndP2 (t : Index) (s : State) : Result :=
  if indexIn 60 79 t then .next (roundUpdate (fP2 s.b s.c s.d) k3 t s) else reservedFault phaseRnd t

/-- `H[i] + working[i]`, word by word (R156). -/
def addedHash (s : State) : Vector Word 5 :=
  #v[add32 s.h[0] s.a, add32 s.h[1] s.b, add32 s.h[2] s.c, add32 s.h[3] s.d, add32 s.h[4] s.e]

/-- `ADDH` (R156): accumulate, count the block, and go to (DONE, 0) if `FINAL`, else to (PAD, 0). -/
def execAddh (s : State) : Result :=
  .next (setPc (if s.finalFlag then phaseDone else phasePad) 0 (setHash (addedHash s) (countBlock s)))

end Sys2Proof.Machine
end

