-- ==== Sys2Proof/Machine/Halt.lean ====
section
/-! DEFINITION. The halt states (`43_sequencer_and_host.md` R180 to R182): the engine has no step, so nothing
changes until the host or `rst` acts (`60_exceptions.md` R211; log 15). -/

namespace Sys2Proof.Machine

open Sys2Proof

/-- `HLT.IDLE` (R180). -/
def execHltIdle (s : State) : Result := .next s

/-- `HLT.DONE` (R181). -/
def execHltDone (s : State) : Result := .next s

/-- `HLT.FAIL` (R182). -/
def execHltFail (s : State) : Result := .next s

end Sys2Proof.Machine
end

