-- ==== Sys2Proof/Machine/Padding.lean ====
section
/-! DEFINITION. `PAD`, the padding state machine (`40_padding.md` R120 to R127). -/

namespace Sys2Proof.Machine

open Sys2Proof

/-- How many message bytes a `PAD` copies: 64 in case 1, `REM` in cases 2 and 3 (`20_memory.md` R63). -/
def padCount (r : Word) : Nat := if 64 ≤ r.toNat then 64 else r.toNat

/-- The offsets a `PAD` reads, in order: `OFF .. OFF + n - 1` (`20_memory.md` R63). -/
def padOffsets (s : State) : List Nat := (List.range (padCount s.rem)).map fun i => s.off.toNat + i

/-- Every offset to be read exists (`20_memory.md` R61; log 10). -/
def padReadable (s : State) : Bool := (padOffsets s).all fun off => decide (off < messageSpace)

/-- `bitlen = (LEN << 3)[31:0]` (`40_padding.md` R124, R126). -/
def bitLength (len : Word) : Word := len <<< 3

/-- `MemRead(MSG, OFF + i, 1)` (R122). -/
def messageAt (s : State) (i : Nat) : Byte := messageByte s.msg (s.off.toNat + i)

/-- Byte `i` of the block in case 1, a full data block (R122). -/
def padByteFull (s : State) (i : Nat) : Byte := messageAt s i

/-- Byte `i` of the block in case 2, `r = REM` in 56 to 63 (R123). -/
def padByteTail (s : State) (i : Nat) : Byte :=
  if i < s.rem.toNat then messageAt s i else if i = s.rem.toNat then terminator else 0

/-- Bytes 60 to 63 of the last block: the bit length, most significant byte first (R124, R126). -/
def trailerByte (len : Word) (i : Nat) : Byte :=
  if i = 60 then (bitLength len).extractLsb' 24 8
  else if i = 61 then (bitLength len).extractLsb' 16 8
  else if i = 62 then (bitLength len).extractLsb' 8 8
  else (bitLength len).extractLsb' 0 8

/-- Byte `i` of the block in case 3, `r = REM` in 0 to 55 (R124). -/
def padByteLast (s : State) (i : Nat) : Byte :=
  if i < s.rem.toNat then messageAt s i
  else if i = s.rem.toNat && terminatorDue s.rem s.len then terminator
  else if i < 60 then 0
  else trailerByte s.len i

/-- The block of a byte function. -/
def blockOf (f : Nat → Byte) : Vector Byte 64 := Vector.ofFn fun i : Fin 64 => f i.val

/-- The state after a `PAD` whose reads are answered: the case is chosen on `REM` (R121). -/
def padded (s : State) : State :=
  if 64 ≤ s.rem.toNat then
    setPadded (blockOf (padByteFull s)) (s.off + 64) (sub32 s.rem 64) false s
  else if 56 ≤ s.rem.toNat then
    setPadded (blockOf (padByteTail s)) (s.off + s.rem) 0 false s
  else
    setPadded (blockOf (padByteLast s)) (s.off + s.rem) 0 true s

/-- `PAD` (R120). -/
def execPad (s : State) : Result :=
  if padReadable s then .next (padded s) else .fault .messageOffsetOutOfSpace

end Sys2Proof.Machine
end

