-- ==== Sys2Proof/Machine/Reads.lean ====
section
/-! DEFINITION. The host's reads (`43_sequencer_and_host.md` R174 to R179): each returns a value and changes
nothing of the engine (`20_memory.md` R71). -/

namespace Sys2Proof.Machine

open Sys2Proof

/-- `RD.CTRL` (R178): returns 0. -/
def execRdCtrl (s : State) : Result := .next (reply 0 s)

/-- `RD.STATUS` (R174): returns `STATUS`, computed from `PHASE` now. -/
def execRdStatus (s : State) : Result := .next (reply (statusWord s) s)

/-- `RD.LEN` (R175): returns `LEN`. -/
def execRdLen (s : State) : Result := .next (reply s.len s)

/-- `RD.BLKCNT` (R176): returns `BLKCNT`. -/
def execRdBlkcnt (s : State) : Result := .next (reply s.blkcnt s)

/-- `RD.H0` (R177). -/
def execRdH0 (s : State) : Result := .next (replyHash 0 s)

/-- `RD.H1` (R177). -/
def execRdH1 (s : State) : Result := .next (replyHash 1 s)

/-- `RD.H2` (R177). -/
def execRdH2 (s : State) : Result := .next (replyHash 2 s)

/-- `RD.H3` (R177). -/
def execRdH3 (s : State) : Result := .next (replyHash 3 s)

/-- `RD.H4` (R177). -/
def execRdH4 (s : State) : Result := .next (replyHash 4 s)

/-- `RD.RSVD idx` (R179): returns 0. -/
def execRdRsvd (_idx : BitVec 4) (s : State) : Result := .next (reply 0 s)

end Sys2Proof.Machine
end

