-- ==== Sys2Proof/Machine/Schedule.lean ====
section
/-! DEFINITION. The word schedule expander: `LDW` and `EXP` (`41_schedule.md` R140, R141). -/

namespace Sys2Proof.Machine

open Sys2Proof

/-- `LDW t` (R140): `W[t]` from four bytes of the block; then (LDW, t + 1), or (EXP, 16) after 15. -/
def execLdw (t : Index) (s : State) : Result :=
  if indexIn 0 15 t then
    .next (advance phaseLdw t 15 phaseExp 16 (setWord t.toNat (blockWord s.blk t.toNat) s))
  else reservedFault phaseLdw t

/-- `EXP t` (R141): `W[t]` from four earlier words; then (EXP, t + 1), or (SEED, 0) after 79. -/
def execExp (t : Index) (s : State) : Result :=
  if indexIn 16 79 t then
    .next (advance phaseExp t 79 phaseSeed 0 (setWord t.toNat (expandWord s.w t.toNat) s))
  else reservedFault phaseExp t

end Sys2Proof.Machine
end

