-- ==== Sys2Proof/Machine/Dispatch.lean ====
section
/-! DEFINITION. The dispatch: one arm per instruction, one direct call of its meaning. -/

namespace Sys2Proof.Machine

open Sys2Proof

/-- What an instruction does. -/
def exec (i : Instr) (s : State) : Host.Outcome State Fault Refusal :=
  match i with
  | .hltIdle => Sys2Proof.Machine.execHltIdle s
  | .pad => Sys2Proof.Machine.execPad s
  | .ldw t => Sys2Proof.Machine.execLdw t s
  | .exp t => Sys2Proof.Machine.execExp t s
  | .seed => Sys2Proof.Machine.execSeed s
  | .rndCh t => Sys2Proof.Machine.execRndCh t s
  | .rndP1 t => Sys2Proof.Machine.execRndP1 t s
  | .rndMaj t => Sys2Proof.Machine.execRndMaj t s
  | .rndP2 t => Sys2Proof.Machine.execRndP2 t s
  | .addh => Sys2Proof.Machine.execAddh s
  | .hltDone => Sys2Proof.Machine.execHltDone s
  | .hltFail => Sys2Proof.Machine.execHltFail s
  | .start => Sys2Proof.Machine.execStart s
  | .cnop => Sys2Proof.Machine.execCnop s
  | .wrStatus v => Sys2Proof.Machine.execWrStatus v s
  | .wrLen v => Sys2Proof.Machine.execWrLen v s
  | .wrBlkcnt v => Sys2Proof.Machine.execWrBlkcnt v s
  | .wrH0 v => Sys2Proof.Machine.execWrH0 v s
  | .wrH1 v => Sys2Proof.Machine.execWrH1 v s
  | .wrH2 v => Sys2Proof.Machine.execWrH2 v s
  | .wrH3 v => Sys2Proof.Machine.execWrH3 v s
  | .wrH4 v => Sys2Proof.Machine.execWrH4 v s
  | .wrRsvd idx v => Sys2Proof.Machine.execWrRsvd idx v s
  | .rdCtrl => Sys2Proof.Machine.execRdCtrl s
  | .rdStatus => Sys2Proof.Machine.execRdStatus s
  | .rdLen => Sys2Proof.Machine.execRdLen s
  | .rdBlkcnt => Sys2Proof.Machine.execRdBlkcnt s
  | .rdH0 => Sys2Proof.Machine.execRdH0 s
  | .rdH1 => Sys2Proof.Machine.execRdH1 s
  | .rdH2 => Sys2Proof.Machine.execRdH2 s
  | .rdH3 => Sys2Proof.Machine.execRdH3 s
  | .rdH4 => Sys2Proof.Machine.execRdH4 s
  | .rdRsvd idx => Sys2Proof.Machine.execRdRsvd idx s

end Sys2Proof.Machine
end

