-- ==== Sys2Proof/Machine/Step.lean ====
section
/-! DEFINITION. One step of the system (`43_sequencer_and_host.md` R183): the turn at the head of the agenda is
used up and carried out. -/

namespace Sys2Proof.Machine

open Sys2Proof

/-- One step. A word decodes and runs, and a reserved control word faults (`30_encoding.md` R95). -/
def step (s : State) : Host.Outcome State Fault Refusal :=
  match present s with
  | .nothing => .next (takeTurn s)
  | .word f =>
    match decode f with
    | .ok i => exec i (takeTurn s)
    | .error e => .fault (decodeFault e)
  | .message offset byte => messageTurn offset byte (takeTurn s)
  | .reset asserted => .next (resetTurn asserted (takeTurn s))

/-- `s` with a word of the opcode table where the step takes its next instruction from: a control word goes into
`PHASE` and `T`, a host word to the head of the agenda (log 2, log 16). -/
def State.withFetchWord (s : State) (nbits w : Nat) : State :=
  match tableWord nbits w with
  | some f => placeWord f s
  | none => s

end Sys2Proof.Machine
end

