-- ==== Sys2Proof/Safety.lean ====
section
/-! DEFINITION. The terms claims are stated in: the legal control words, the invariant of a run (`10_state.md`
R36), what of a state belongs to the engine, and the function the engine computes (`00_scope.md` R3),
written without the machine's own operations. -/

namespace Sys2Proof.Safety

open Sys2Proof Sys2Proof.Machine

/-! ### Control words -/

/-- The row of `30_encoding.md` R93 admits this index for this phase; every other control word is reserved (R95). -/
def legalPc (p : PhaseCode) (t : Index) : Bool :=
  match p.toNat with
  | 2 => decide (t.toNat ≤ 15)
  | 3 => decide (16 ≤ t.toNat) && decide (t.toNat ≤ 79)
  | 5 => decide (t.toNat ≤ 79)
  | 0 | 1 | 4 | 6 | 7 | 8 => decide (t.toNat = 0)
  | _ => false

/-! ### The invariant of a run -/

/-- `ceil((L + 9) / 64)`, the number of blocks of a message of `L` bytes (`43` R186, `90` C2). -/
def blocksNeeded (l : Nat) : Nat := (l + 72) / 64

/-- While `PAD` is next: no final block yet, and either every byte copied lies in a counted block, or the tail of
56 to 63 bytes has just been compressed (`40_padding.md` R128). -/
def padPosition (s : State) : Prop :=
  s.finalFlag = false ∧
    (s.off.toNat = 64 * s.blkcnt.toNat ∨
      (s.rem.toNat = 0 ∧ 56 ≤ s.len.toNat % 64 ∧ s.blkcnt.toNat = s.len.toNat / 64 + 1))

/-- While a block is being expanded or compressed: the block is the last one and the count says so, or it is a full
data block, or it holds the tail of 56 to 63 bytes. -/
def blockPosition (s : State) : Prop :=
  if s.finalFlag then s.rem.toNat = 0 ∧ s.blkcnt.toNat + 1 = blocksNeeded s.len.toNat
  else s.off.toNat = 64 * (s.blkcnt.toNat + 1) ∨
    (s.rem.toNat = 0 ∧ 56 ≤ s.len.toNat % 64 ∧ s.blkcnt.toNat = s.len.toNat / 64)

/-- What holds while `BUSY = 1`. -/
structure RunInv (s : State) : Prop where
  /-- `LEN <= MAXLEN`, `MAXLEN = 536870911` (R36 item 1, R8). -/
  admitted : s.len.toNat ≤ 536870911
  /-- `OFF + REM = LEN` (R36 item 1). -/
  split : s.off.toNat + s.rem.toNat = s.len.toNat
  /-- Where the run stands. -/
  place : if s.phase = phasePad then padPosition s else blockPosition s

/-- The invariant every step keeps, from which R36 follows. -/
structure Inv (s : State) : Prop where
  /-- The control word is one of the 166 of R93 (R36 item 4). -/
  legal : legalPc s.phase s.t = true
  /-- The message memory has its canonical form. -/
  canonical : s.msg.wf = true
  /-- `FINAL = 1` implies `REM = 0` (R36 item 5). -/
  finalEmpty : s.finalFlag = true → s.rem.toNat = 0
  /-- A run in progress is where it should be. -/
  running : busy s = true → RunInv s
  /-- DONE is reached with `FINAL = 1` only (`42_compression.md` R156). -/
  doneFinal : done s = true → s.finalFlag = true
  /-- IDLE and FAIL have counted no block (`10_state.md` R39, `60_exceptions.md` R204). -/
  stoppedClear : s.phase = phaseIdle ∨ s.phase = phaseFail → s.blkcnt = 0 ∧ s.finalFlag = false

/-! ### What belongs to the engine -/

/-- The engine and the message, without what the outside has queued and been told. -/
def engineView (s : State) : State := { s with agenda := [], replies := [], draws := 0 }

/-- An engine turn or a host transaction, nothing else. -/
def engineOrHost : Turn → Bool
  | .engine => true
  | .host _ => true
  | .message _ _ => false
  | .reset _ => false

/-- How many engine turns an agenda holds. -/
def engineTurns (l : List Turn) : Nat := l.countP fun x => x == .engine

/-- The host word of `START` (`30_encoding.md` R105). -/
def startWord : HostWord := 0x1000000001#37

/-! ### The function computed -/

/-- The initial hash state (`00_scope.md` R9), written out apart from the machine's own constant. -/
def initialHash : Vector Word 5 := #v[0x67452301, 0xEFCDAB89, 0x98BADCFE, 0x10325476, 0xC3D2E1F0]

/-- Schedule word `t` below 16: four block bytes, the first the most significant (`20_memory.md` R66). -/
def loadedWord (blk : Vector Byte 64) (t : Nat) (h : t < 16) : Word :=
  blk[4 * t].setWidth 32 <<< 24 ||| blk[4 * t + 1].setWidth 32 <<< 16 |||
    blk[4 * t + 2].setWidth 32 <<< 8 ||| blk[4 * t + 3].setWidth 32

/-- Schedule word `t` from 16 on, from four earlier ones (`41_schedule.md` R141). -/
def expandedWord (w : Vector Word 80) (t : Nat) (h : t < 80) : Word :=
  (w[t - 3] ^^^ w[t - 8] ^^^ w[t - 14] ^^^ w[t - 16]).rotateLeft 1

/-- The schedule of a block: 80 words in ascending order (`41_schedule.md` R142). -/
def scheduleOf (blk : Vector Byte 64) : Vector Word 80 :=
  (List.finRange 80).foldl
    (fun w t => w.set t.val
      (if h : t.val < 16 then loadedWord blk t.val h else expandedWord w t.val t.isLt) t.isLt)
    (Vector.replicate 80 0)

/-- The five working values. -/
structure Working where
  a : Word
  b : Word
  c : Word
  d : Word
  e : Word
  deriving DecidableEq, Repr

/-- The boolean function of round `t`, by range (`42_compression.md` R152 to R155). -/
def roundFunction (t : Nat) (b c d : Word) : Word :=
  if t < 20 then (b &&& c) ||| (~~~b &&& d)
  else if t < 40 then b ^^^ c ^^^ d
  else if t < 60 then (b &&& c) ||| (b &&& d) ||| (c &&& d)
  else b ^^^ c ^^^ d

/-- The constant of round `t`, by range (`00_scope.md` R8). -/
def roundConstant (t : Nat) : Word :=
  if t < 20 then 0x5A827999 else if t < 40 then 0x6ED9EBA1 else if t < 60 then 0x8F1BBCDC else 0xCA62C1D6

/-- One round on five values, with the schedule word `wt` (R151). -/
def roundOf (t : Nat) (wt : Word) (v : Working) : Working where
  a := v.a.rotateLeft 5 + roundFunction t v.b v.c v.d + v.e + roundConstant t + wt
  b := v.a
  c := v.b.rotateLeft 30
  d := v.c
  e := v.d

/-- The 80 rounds over a schedule. -/
def roundsOf (w : Vector Word 80) (v : Working) : Working :=
  (List.finRange 80).foldl (fun v t => roundOf t.val w[t] v) v

/-- `H + working`, word by word modulo 2^32 (`42_compression.md` R156). -/
def addWorking (h : Vector Word 5) (v : Working) : Vector Word 5 :=
  #v[h[0] + v.a, h[1] + v.b, h[2] + v.c, h[3] + v.d, h[4] + v.e]

/-- The working values seeded from the hash state (`42_compression.md` R150). -/
def seeded (h : Vector Word 5) : Working := ⟨h[0], h[1], h[2], h[3], h[4]⟩

/-- `compress(H, BLK)` (`42_compression.md` R158). -/
def compress (h : Vector Word 5) (blk : Vector Byte 64) : Vector Word 5 :=
  addWorking h (roundsOf (scheduleOf blk) (seeded h))

/-- Byte `j` of the padded message: the message, a `1` bit and zeros, and the bit length as a 64-bit big-endian
number in the last eight bytes (`00_scope.md` R16 "Padding", `90` C3). -/
def paddedByte (m : Nat → Byte) (l j : Nat) : Byte :=
  if j < l then m j
  else if j = l then 0x80
  else if j + 8 < 64 * blocksNeeded l then 0
  else BitVec.ofNat 8 (8 * l / 256 ^ (64 * blocksNeeded l - 1 - j))

/-- Block `i` of the padded message. -/
def paddedBlock (m : Nat → Byte) (l i : Nat) : Vector Byte 64 :=
  Vector.ofFn fun k : Fin 64 => paddedByte m l (64 * i + k.val)

/-- The SHA-1 state of the first `n` blocks of a message of `l` bytes. -/
def hashAfter (m : Nat → Byte) (l n : Nat) : Vector Word 5 :=
  (List.range n).foldl (fun h i => compress h (paddedBlock m l i)) initialHash

/-- The SHA-1 digest of a message of `l` bytes, as five words (`00_scope.md` R3). -/
def sha1 (m : Nat → Byte) (l : Nat) : Vector Word 5 := hashAfter m l (blocksNeeded l)

end Sys2Proof.Safety
end

