-- ==== Sys2Proof/Certificates/Slice0/Obligations.lean ====
section
/-! DEFINITION. The statements for the provers. Each docstring names the rule of spec/ it formalises; each says what
changes by an equation for the whole next state, so that its frame is in it. -/

open Sys2Proof Sys2Proof.Machine Sys2Proof.Safety

/-! ### Encodings -/

/-- Every well-formed instruction decodes from its own word, with every operand (`30_encoding.md` sections 1 and 4). -/
def Obligations.EncodeDecodeRoundTrip : Prop :=
  ∀ i : Instr, WellFormed i → decode (encode i) = .ok i

/-- What decodes is well formed, and a control word is the word of the instruction it decodes to. -/
def Obligations.DecodedWordsAreWellFormed : Prop :=
  (∀ (f : Fetched) (i : Instr), decode f = .ok i → WellFormed i) ∧
  (∀ (cw : ControlWord) (i : Instr), decode (.control cw) = .ok i → encode i = .control cw)

/-- R93 and R94: the row of every reachable control word; `seg = floor(T / 20)` tells the `RND` variants apart. -/
def Obligations.ControlWordTable : Prop :=
  decodeControl 0x000 = .ok .hltIdle ∧ decodeControl 0x080 = .ok .pad ∧ decodeControl 0x200 = .ok .seed ∧
  decodeControl 0x300 = .ok .addh ∧ decodeControl 0x380 = .ok .hltDone ∧ decodeControl 0x400 = .ok .hltFail ∧
  (∀ t : Index, t.toNat ≤ 15 → decodeControl (BitVec.ofNat 11 (0x100 + t.toNat)) = .ok (.ldw t)) ∧
  (∀ t : Index, 16 ≤ t.toNat → t.toNat ≤ 79 → decodeControl (BitVec.ofNat 11 (0x180 + t.toNat)) = .ok (.exp t)) ∧
  (∀ t : Index, t.toNat ≤ 19 → decodeControl (BitVec.ofNat 11 (0x280 + t.toNat)) = .ok (.rndCh t)) ∧
  (∀ t : Index, 20 ≤ t.toNat → t.toNat ≤ 39 → decodeControl (BitVec.ofNat 11 (0x280 + t.toNat)) = .ok (.rndP1 t)) ∧
  (∀ t : Index, 40 ≤ t.toNat → t.toNat ≤ 59 → decodeControl (BitVec.ofNat 11 (0x280 + t.toNat)) = .ok (.rndMaj t)) ∧
  (∀ t : Index, 60 ≤ t.toNat → t.toNat ≤ 79 → decodeControl (BitVec.ofNat 11 (0x280 + t.toNat)) = .ok (.rndP2 t))

/-- R95: a control word outside the table faults on the engine's turn, and no step writes one. -/
def Obligations.ReservedControlWordsFault : Prop :=
  (∀ s : State, s.rst = false → nextTurn s = .engine → legalPc s.phase s.t = false →
    step s = .fault (.reservedControlWord (controlWord s))) ∧
  (∀ s t : State, legalPc s.phase s.t = true → step s = .next t → legalPc t.phase t.t = true)

/-- R97: every host word decodes, to the row its fields name; the data of a read is ignored (R96), and of a `CTRL`
write only bit 0 counts (R98). -/
def Obligations.HostWordTable : Prop :=
  ∀ v : Word,
    decodeHost (mkHostWord 1 0 v) = (if v.getLsbD 0 then .start else .cnop) ∧
    decodeHost (mkHostWord 1 1 v) = .wrStatus v ∧ decodeHost (mkHostWord 1 2 v) = .wrLen v ∧
    decodeHost (mkHostWord 1 3 v) = .wrBlkcnt v ∧ decodeHost (mkHostWord 1 4 v) = .wrH0 v ∧
    decodeHost (mkHostWord 1 5 v) = .wrH1 v ∧ decodeHost (mkHostWord 1 6 v) = .wrH2 v ∧
    decodeHost (mkHostWord 1 7 v) = .wrH3 v ∧ decodeHost (mkHostWord 1 8 v) = .wrH4 v ∧
    (∀ idx : BitVec 4, 9 ≤ idx.toNat → decodeHost (mkHostWord 1 idx v) = .wrRsvd idx v) ∧
    decodeHost (mkHostWord 0 0 v) = .rdCtrl ∧ decodeHost (mkHostWord 0 1 v) = .rdStatus ∧
    decodeHost (mkHostWord 0 2 v) = .rdLen ∧ decodeHost (mkHostWord 0 3 v) = .rdBlkcnt ∧
    decodeHost (mkHostWord 0 4 v) = .rdH0 ∧ decodeHost (mkHostWord 0 5 v) = .rdH1 ∧
    decodeHost (mkHostWord 0 6 v) = .rdH2 ∧ decodeHost (mkHostWord 0 7 v) = .rdH3 ∧
    decodeHost (mkHostWord 0 8 v) = .rdH4 ∧
    (∀ idx : BitVec 4, 9 ≤ idx.toNat → decodeHost (mkHostWord 0 idx v) = .rdRsvd idx)

/-- The rows of spec/opcode_table.json are pairwise disjoint and cover exactly the words that decode, each with its
mnemonic (`30_encoding.md` section 4). -/
def Obligations.OpcodeRowsPartitionWords : Prop :=
  ∀ f : Fetched, (opcodeRows.filter fun row => row.covers f).map OpcodeRow.mnemonic =
    match decode f with
    | .ok i => [i.mnemonic]
    | .error _ => []

/-- A few words as the spec writes them (`30_encoding.md` R105, `95_test_vectors.md` section 4). -/
def Obligations.SampleWordsDecode : Prop :=
  decode (.host 0x1000000001#37) = .ok .start ∧ decode (.host 0x1200000003#37) = .ok (.wrLen 3) ∧
  decode (.host 0x0800000000#37) = .ok .rdH4 ∧ decode (.host 0x10FFFFFFFE#37) = .ok .cnop ∧
  decode (.control 0x10F#11) = .ok (.ldw 15) ∧ decode (.control 0x190#11) = .ok (.exp 16) ∧
  decode (.control 0x2A7#11) = .ok (.rndP1 39) ∧ decode (.control 0x2A8#11) = .ok (.rndMaj 40)

/-! ### The step -/

/-- The engine's turn runs the instruction its control word decodes to; the step adds only that the turn is used up
(`43_sequencer_and_host.md` R183 (a), `10_state.md` R32). -/
def Obligations.EngineTurnRunsControlWord : Prop :=
  ∀ (s : State) (i : Instr), s.rst = false → nextTurn s = .engine → decodeControl (controlWord s) = .ok i →
    WellFormed i → step s = exec i { s with agenda := s.agenda.tail }

/-- A host turn runs the transaction its word decodes to (R183 (b)). -/
def Obligations.HostTurnRunsTransaction : Prop :=
  ∀ (s : State) (tw : HostWord) (rest : List Turn), s.rst = false → s.agenda = .host tw :: rest →
    step s = exec (decodeHost tw) { s with agenda := rest }

/-- While `rst` is asserted the engine executes nothing and accepts no host transaction; releasing it leaves the
state as it is, and asserting it again leaves the message, the replies and the queued turns alone
(`70_reset_and_hazards.md` section 1; that a turn is used up, and what the level of `rst` is as state, is the model's
choice, log 7). -/
def Obligations.AssertedResetHoldsEngine : Prop :=
  (∀ s : State, s.rst = true → s.agenda = [] → step s = .next s) ∧
  (∀ (s : State) (rest : List Turn), s.rst = true → s.agenda = .engine :: rest →
    step s = .next { s with agenda := rest }) ∧
  (∀ (s : State) (tw : HostWord) (rest : List Turn), s.rst = true → s.agenda = .host tw :: rest →
    step s = .next { s with agenda := rest }) ∧
  (∀ (s : State) (rest : List Turn), s.agenda = .reset false :: rest →
    step s = .next { s with rst := false, agenda := rest }) ∧
  (∀ (s : State) (rest : List Turn), s.agenda = .reset true :: rest →
    ∃ t, step s = .next t ∧ t.msg = s.msg ∧ t.replies = s.replies ∧ t.agenda = rest ∧ t.rst = true)

/-- R231: what asserting `rst` writes, from any state, in mid-run too: the reset state, `STATUS` and the pins 0, and a
control word for which the engine has no step. -/
def Obligations.ResetWritesResetState : Prop :=
  ∀ (s : State) (rest : List Turn), s.agenda = .reset true :: rest →
    ∃ t, step s = .next t ∧ t.phase = 0 ∧ t.t = 0 ∧ t.finalFlag = false ∧ t.len = 0 ∧ t.blkcnt = 0 ∧
      statusWord t = 0 ∧ pinBusy t = false ∧ pinDone t = false ∧ pinErr t = false ∧
      decodeControl (controlWord t) = .ok .hltIdle

/-- R39: the values the spec gives for reset, and the flags they give. -/
def Obligations.ResetStateValues : Prop :=
  State.reset.phase = 0 ∧ State.reset.t = 0 ∧ State.reset.finalFlag = false ∧ State.reset.len = 0 ∧
  State.reset.blkcnt = 0 ∧ busy State.reset = false ∧ done State.reset = false ∧ err State.reset = false

/-- R187: no command stops a run; what ends one is the `ADDH` of a final block, or reset. -/
def Obligations.OnlyFinalAddhOrResetEndsRun : Prop :=
  ∀ s t : State, busy s = true → step s = .next t → busy t = false →
    nextTurn s = .reset true ∨
    (nextTurn s = .engine ∧ decodeControl (controlWord s) = .ok .addh ∧ s.finalFlag = true ∧ done t = true)

/-! ### The engine's micro-operations -/

/-- R122: case 1 of `PAD`, a full data block. -/
def Obligations.PadCopiesFullBlock : Prop :=
  ∀ s : State, 64 ≤ s.rem.toNat → (∀ i, i < 64 → s.off.toNat + i < 2 ^ 29) →
    ∃ blk : Vector Byte 64,
      exec .pad s = .next { s with
        blk := blk, off := s.off + 64, rem := s.rem - 64, finalFlag := false, phase := 0x2, t := 0 } ∧
      ∀ i : Fin 64, blk[i] = messageByte s.msg (s.off.toNat + i.val)

/-- R123: case 2 of `PAD`, a tail of 56 to 63 bytes. -/
def Obligations.PadTerminatesLongTail : Prop :=
  ∀ s : State, 56 ≤ s.rem.toNat → s.rem.toNat < 64 → (∀ i, i < s.rem.toNat → s.off.toNat + i < 2 ^ 29) →
    ∃ blk : Vector Byte 64,
      exec .pad s = .next { s with
        blk := blk, off := s.off + s.rem, rem := 0, finalFlag := false, phase := 0x2, t := 0 } ∧
      ∀ i : Fin 64,
        (i.val < s.rem.toNat → blk[i] = messageByte s.msg (s.off.toNat + i.val)) ∧
        (i.val = s.rem.toNat → blk[i] = 0x80) ∧
        (s.rem.toNat < i.val → blk[i] = 0x00)

/-- R124: case 3 of `PAD`, a tail of 0 to 55 bytes with the terminator, if it is due, and the trailer. -/
def Obligations.PadEndsMessage : Prop :=
  ∀ s : State, s.rem.toNat < 56 → (∀ i, i < s.rem.toNat → s.off.toNat + i < 2 ^ 29) →
    ∃ blk : Vector Byte 64,
      exec .pad s = .next { s with
        blk := blk, off := s.off + s.rem, rem := 0, finalFlag := true, phase := 0x2, t := 0 } ∧
      (∀ i : Fin 64,
        (i.val < s.rem.toNat → blk[i] = messageByte s.msg (s.off.toNat + i.val)) ∧
        (i.val = s.rem.toNat → blk[i] = if s.rem.toNat ≠ 0 ∨ s.len.toNat % 64 = 0 then 0x80 else 0x00) ∧
        (s.rem.toNat < i.val → i.val < 60 → blk[i] = 0x00)) ∧
      blk[60] = BitVec.extractLsb 31 24 (s.len <<< 3) ∧ blk[61] = BitVec.extractLsb 23 16 (s.len <<< 3) ∧
      blk[62] = BitVec.extractLsb 15 8 (s.len <<< 3) ∧ blk[63] = BitVec.extractLsb 7 0 (s.len <<< 3)

/-- R126: for an admitted length the trailer is exactly `8 * LEN`, its low three bits 0, and bytes 56 to 59 are 0. -/
def Obligations.TrailerIsBitLength : Prop :=
  ∀ s t : State, s.len.toNat ≤ 536870911 → s.rem.toNat < 56 → exec .pad s = .next t →
    t.blk[56] = 0 ∧ t.blk[57] = 0 ∧ t.blk[58] = 0 ∧ t.blk[59] = 0 ∧
    (t.blk[60] ++ t.blk[61] ++ t.blk[62] ++ t.blk[63] : BitVec (8 + 8 + 8 + 8)).toNat = 8 * s.len.toNat ∧
    t.blk[63].extractLsb' 0 3 = 0

/-- R127: nothing of the previous block survives a `PAD`, in any case, and `PAD` writes nothing but `BLK`, `OFF`,
`REM`, `FINAL` and the control word. -/
def Obligations.PadOverwritesWholeBlock : Prop :=
  ∀ (s t : State) (old : Vector Byte 64), exec .pad s = .next t →
    exec .pad { s with blk := old } = .next t ∧
    t = { s with blk := t.blk, off := t.off, rem := t.rem, finalFlag := t.finalFlag, phase := 0x2, t := 0 }

/-- A `PAD` that would read an offset outside the message space stops (`20_memory.md` section 1 gives the space; that
the model faults there is its choice, log 10). -/
def Obligations.PadFaultsOutsideMessageSpace : Prop :=
  ∀ (s : State) (i : Nat), i < 64 → i < s.rem.toNat → 2 ^ 29 ≤ s.off.toNat + i →
    exec .pad s = .fault .messageOffsetOutOfSpace

/-- In a run every offset read lies inside the message, so `PAD` always completes (`20_memory.md` section 1, the rule
on which offsets `PAD` reads, which the spec marks as derived). -/
def Obligations.PadReadsInsideMessage : Prop :=
  ∀ s : State, Inv s → s.phase = 0x1 →
    (∀ off ∈ padOffsets s, s.off.toNat ≤ off ∧ off < s.len.toNat) ∧ ∃ t, exec .pad s = .next t

/-- R140: `LDW t`. -/
def Obligations.LdwLoadsBigEndianWord : Prop :=
  ∀ (t : Index) (s : State) (_ : t.toNat ≤ 15),
    decodeControl (BitVec.ofNat 11 (0x100 + t.toNat)) = .ok (.ldw t) ∧
    exec (.ldw t) s = .next { s with
      w := s.w.set t.toNat
        (s.blk[4 * t.toNat].setWidth 32 <<< 24 ||| s.blk[4 * t.toNat + 1].setWidth 32 <<< 16 |||
          s.blk[4 * t.toNat + 2].setWidth 32 <<< 8 ||| s.blk[4 * t.toNat + 3].setWidth 32)
      phase := if t.toNat < 15 then 0x2 else 0x3
      t := if t.toNat < 15 then t + 1 else 16 }

/-- R141: `EXP t`; the rotation is circular. -/
def Obligations.ExpExpandsSchedule : Prop :=
  ∀ (t : Index) (s : State) (_ : 16 ≤ t.toNat) (_ : t.toNat ≤ 79),
    decodeControl (BitVec.ofNat 11 (0x180 + t.toNat)) = .ok (.exp t) ∧
    exec (.exp t) s = .next { s with
      w := s.w.set t.toNat
        ((s.w[t.toNat - 3] ^^^ s.w[t.toNat - 8] ^^^ s.w[t.toNat - 14] ^^^ s.w[t.toNat - 16]).rotateLeft 1)
      phase := if t.toNat < 79 then 0x3 else 0x4
      t := if t.toNat < 79 then t + 1 else 0 }

/-- R150: `SEED`. -/
def Obligations.SeedCopiesHash : Prop :=
  decodeControl 0x200 = .ok .seed ∧
  ∀ s : State, exec .seed s =
    .next { s with a := s.h[0], b := s.h[1], c := s.h[2], d := s.h[3], e := s.h[4], phase := 0x5, t := 0 }

/-- R152: `RND.CH t`, with the round update in full. -/
def Obligations.RndChUpdatesWorking : Prop :=
  ∀ (t : Index) (s : State) (_ : t.toNat ≤ 19), exec (.rndCh t) s = .next { s with
    a := s.a.rotateLeft 5 + ((s.b &&& s.c) ||| (~~~s.b &&& s.d)) + s.e + 0x5A827999 + s.w[t.toNat]
    b := s.a, c := s.b.rotateLeft 30, d := s.c, e := s.d, phase := 0x5, t := t + 1 }

/-- R153: `RND.P1 t`. -/
def Obligations.RndP1UpdatesWorking : Prop :=
  ∀ (t : Index) (s : State) (_ : 20 ≤ t.toNat) (_ : t.toNat ≤ 39), exec (.rndP1 t) s = .next { s with
    a := s.a.rotateLeft 5 + (s.b ^^^ s.c ^^^ s.d) + s.e + 0x6ED9EBA1 + s.w[t.toNat]
    b := s.a, c := s.b.rotateLeft 30, d := s.c, e := s.d, phase := 0x5, t := t + 1 }

/-- R154: `RND.MAJ t`. -/
def Obligations.RndMajUpdatesWorking : Prop :=
  ∀ (t : Index) (s : State) (_ : 40 ≤ t.toNat) (_ : t.toNat ≤ 59), exec (.rndMaj t) s = .next { s with
    a := s.a.rotateLeft 5 + ((s.b &&& s.c) ||| (s.b &&& s.d) ||| (s.c &&& s.d)) + s.e + 0x8F1BBCDC +
      s.w[t.toNat]
    b := s.a, c := s.b.rotateLeft 30, d := s.c, e := s.d, phase := 0x5, t := t + 1 }

/-- R155: `RND.P2 t`; after round 79 comes `ADDH`. -/
def Obligations.RndP2UpdatesWorking : Prop :=
  ∀ (t : Index) (s : State) (_ : 60 ≤ t.toNat) (_ : t.toNat ≤ 79), exec (.rndP2 t) s = .next { s with
    a := s.a.rotateLeft 5 + (s.b ^^^ s.c ^^^ s.d) + s.e + 0xCA62C1D6 + s.w[t.toNat]
    b := s.a, c := s.b.rotateLeft 30, d := s.c, e := s.d
    phase := if t.toNat < 79 then 0x5 else 0x6
    t := if t.toNat < 79 then t + 1 else 0 }

/-- R151 and R94: for every round index the control word `0x280 + t` decodes to an instruction whose effect is the
common update with the function and constant of `seg = floor(t / 20)`. -/
def Obligations.EveryRoundIsCommonUpdate : Prop :=
  ∀ (t : Index) (s : State) (_ : t.toNat ≤ 79),
    ∃ i, decodeControl (BitVec.ofNat 11 (0x280 + t.toNat)) = .ok i ∧
      exec i s = .next { s with
        a := s.a.rotateLeft 5 +
          (match t.toNat / 20 with
            | 0 => (s.b &&& s.c) ||| (~~~s.b &&& s.d)
            | 1 => s.b ^^^ s.c ^^^ s.d
            | 2 => (s.b &&& s.c) ||| (s.b &&& s.d) ||| (s.c &&& s.d)
            | _ => s.b ^^^ s.c ^^^ s.d) + s.e +
          (match t.toNat / 20 with
            | 0 => 0x5A827999
            | 1 => 0x6ED9EBA1
            | 2 => 0x8F1BBCDC
            | _ => 0xCA62C1D6) + s.w[t.toNat]
        b := s.a, c := s.b.rotateLeft 30, d := s.c, e := s.d
        phase := if t.toNat < 79 then 0x5 else 0x6
        t := if t.toNat < 79 then t + 1 else 0 }

/-- The round functions bit by bit, and the equal forms the spec derives (`42_compression.md` section 2). -/
def Obligations.RoundFunctionsBitByBit : Prop :=
  ∀ b c d : Word,
    (∀ i : Nat, i < 32 →
      (fCh b c d).getLsbD i = (if b.getLsbD i then c.getLsbD i else d.getLsbD i) ∧
      (fP1 b c d).getLsbD i = (b.getLsbD i ^^ (c.getLsbD i ^^ d.getLsbD i)) ∧
      (fMaj b c d).getLsbD i = decide (2 ≤ (b.getLsbD i).toNat + (c.getLsbD i).toNat + (d.getLsbD i).toNat)) ∧
    fCh b c d = d ^^^ (b &&& (c ^^^ d)) ∧ fMaj b c d = (b &&& c) ||| (d &&& (b ||| c)) ∧ fP2 b c d = fP1 b c d

/-- `ROTL(n, x)`: bit i of x becomes bit (i + n) mod 32 of the result (`00_scope.md` section 6). -/
def Obligations.RotlIsCircular : Prop :=
  ∀ (n : Nat) (x : Word) (i : Nat), 0 < n → n < 32 → i < 32 →
    (rotl n x).getLsbD ((i + n) % 32) = x.getLsbD i

/-- R156: `ADDH` accumulates, counts the block and decides on `FINAL`. -/
def Obligations.AddhAccumulatesHash : Prop :=
  decodeControl 0x300 = .ok .addh ∧
  ∀ s : State, exec .addh s = .next { s with
    h := #v[s.h[0] + s.a, s.h[1] + s.b, s.h[2] + s.c, s.h[3] + s.d, s.h[4] + s.e]
    blkcnt := s.blkcnt + 1
    phase := if s.finalFlag then 0x7 else 0x1
    t := 0 }

/-- The halt states: nothing changes on the engine's turn, and `STATUS` shows which one it is
(`43_sequencer_and_host.md` section 3; that the model's step goes on unchanged is log 15). -/
def Obligations.HaltStatesChangeNothing : Prop :=
  (∀ s : State, exec .hltIdle s = .next s ∧ exec .hltDone s = .next s ∧ exec .hltFail s = .next s) ∧
  (∀ s : State, s.rst = false → s.agenda = [] → s.t = 0 → s.phase = 0x0 ∨ s.phase = 0x7 ∨ s.phase = 0x8 →
    step s = .next s) ∧
  (∀ s : State, (s.phase = 0x0 → statusWord s = 0x0) ∧ (s.phase = 0x7 → statusWord s = 0x2) ∧
    (s.phase = 0x8 → statusWord s = 0x4))

/-- An index outside its mnemonic's range stops each of the six meanings that take one, by name (`30_encoding.md`
section 1; that they stop so is log 11). -/
def Obligations.IllFormedIndexFaults : Prop :=
  ∀ (t : Index) (s : State),
    (15 < t.toNat → exec (.ldw t) s = .fault (.reservedControlWord (mkControlWord 0x2 t))) ∧
    (t.toNat < 16 ∨ 79 < t.toNat → exec (.exp t) s = .fault (.reservedControlWord (mkControlWord 0x3 t))) ∧
    (19 < t.toNat → exec (.rndCh t) s = .fault (.reservedControlWord (mkControlWord 0x5 t))) ∧
    (t.toNat < 20 ∨ 39 < t.toNat → exec (.rndP1 t) s = .fault (.reservedControlWord (mkControlWord 0x5 t))) ∧
    (t.toNat < 40 ∨ 59 < t.toNat → exec (.rndMaj t) s = .fault (.reservedControlWord (mkControlWord 0x5 t))) ∧
    (t.toNat < 60 ∨ 79 < t.toNat → exec (.rndP2 t) s = .fault (.reservedControlWord (mkControlWord 0x5 t)))

/-- R170: the control transfers of every micro-operation, of `START` and of reset; the only conditional one is at
`ADDH`, on `FINAL`. -/
def Obligations.NextControlWordTable : Prop :=
  ∀ s u : State,
    (exec .hltIdle s = .next u → u = s) ∧ (exec .hltDone s = .next u → u = s) ∧ (exec .hltFail s = .next u → u = s) ∧
    (exec .pad s = .next u → u.phase = 0x2 ∧ u.t = 0) ∧
    (∀ t : Index, exec (.ldw t) s = .next u →
      (t.toNat < 15 → u.phase = 0x2 ∧ u.t.toNat = t.toNat + 1) ∧ (t.toNat = 15 → u.phase = 0x3 ∧ u.t = 16)) ∧
    (∀ t : Index, exec (.exp t) s = .next u →
      (t.toNat < 79 → u.phase = 0x3 ∧ u.t.toNat = t.toNat + 1) ∧ (t.toNat = 79 → u.phase = 0x4 ∧ u.t = 0)) ∧
    (exec .seed s = .next u → u.phase = 0x5 ∧ u.t = 0) ∧
    (∀ (i : Instr) (t : Index), i = .rndCh t ∨ i = .rndP1 t ∨ i = .rndMaj t ∨ i = .rndP2 t → exec i s = .next u →
      (t.toNat < 79 → u.phase = 0x5 ∧ u.t.toNat = t.toNat + 1) ∧ (t.toNat = 79 → u.phase = 0x6 ∧ u.t = 0)) ∧
    (exec .addh s = .next u → (s.finalFlag = false → u.phase = 0x1 ∧ u.t = 0) ∧
      (s.finalFlag = true → u.phase = 0x7 ∧ u.t = 0)) ∧
    (exec .start s = .next u → busy s = false →
      (u.phase = 0x1 ∧ u.t = 0) ∨ (u.phase = 0x8 ∧ u.t = 0)) ∧
    (resetTurn true s = u → u.phase = 0x0 ∧ u.t = 0)

/-! ### The host's transactions -/

/-- R171: `START` in its three branches, whatever `DATA[31:1]` holds. -/
def Obligations.StartBeginsRun : Prop :=
  (∀ v : Word, v.getLsbD 0 = true → decodeHost (mkHostWord 1 0 v) = .start) ∧
  ∀ s : State,
    (busy s = true → exec .start s = .next s) ∧
    (busy s = false → 0x1FFFFFFF < s.len.toNat →
      exec .start s = .next { s with blkcnt := 0, finalFlag := false, phase := 0x8, t := 0 }) ∧
    (busy s = false → s.len.toNat ≤ 0x1FFFFFFF →
      exec .start s = .next { s with
        h := #v[0x67452301, 0xEFCDAB89, 0x98BADCFE, 0x10325476, 0xC3D2E1F0]
        rem := s.len, off := 0, blkcnt := 0, finalFlag := false, phase := 0x1, t := 0 })

/-- R200 and R201: LengthExceeded is raised by an accepted `START` with `LEN >= 0x20000000`, and by nothing else; its
code is `STATUS = 4`. -/
def Obligations.OnlyStartRaisesLengthExceeded : Prop :=
  ∀ (i : Instr) (s t : State), exec i s = .next t → err s = false →
    (err t = true ↔ i = .start ∧ busy s = false ∧ 0x20000000 ≤ s.len.toNat) ∧
    (err t = true → statusWord t = 0x4)

/-- R203: exception entry writes `PHASE`, `T`, `BLKCNT`, `FINAL` and nothing else; `LEN` keeps the refused length. -/
def Obligations.LengthExceededEntry : Prop :=
  ∀ s : State, busy s = false → 0x20000000 ≤ s.len.toNat →
    exec .start s = .next { s with phase := 0x8, t := 0, blkcnt := 0, finalFlag := false }

/-- R205: `ERR` is cleared by exactly an accepted `START` and reset. -/
def Obligations.ErrClearedByStartOrReset : Prop :=
  (∀ s t : State, err s = true → step s = .next t → err t = false →
    (s.rst = false ∧ ∃ tw, nextTurn s = .host tw ∧ decodeHost tw = .start) ∨ nextTurn s = .reset true) ∧
  (∀ s : State, err s = true →
    (∃ t, exec .start s = .next t ∧ (err t = false ↔ s.len.toNat ≤ 0x1FFFFFFF)) ∧
    err (resetTurn true s) = false)

/-- R173: `WR.LEN v` stores any value while not busy, and is dropped while busy. -/
def Obligations.WrLenStoresUnlessBusy : Prop :=
  ∀ (v : Word) (s : State),
    decodeHost (mkHostWord 1 2 v) = .wrLen v ∧
    (busy s = false → exec (.wrLen v) s = .next { s with len := v }) ∧
    (busy s = true → exec (.wrLen v) s = .next s)

/-- R172 and R179: the accesses without effect, and what a read of a reserved slot returns. -/
def Obligations.AccessesWithoutEffect : Prop :=
  ∀ (v : Word) (idx : BitVec 4) (s : State),
    exec .cnop s = .next s ∧ exec (.wrStatus v) s = .next s ∧ exec (.wrBlkcnt v) s = .next s ∧
    exec (.wrH0 v) s = .next s ∧ exec (.wrH1 v) s = .next s ∧ exec (.wrH2 v) s = .next s ∧
    exec (.wrH3 v) s = .next s ∧ exec (.wrH4 v) s = .next s ∧ exec (.wrRsvd idx v) s = .next s ∧
    exec (.rdRsvd idx) s = .next { s with replies := 0 :: s.replies } ∧
    (v.getLsbD 0 = false → decodeHost (mkHostWord 1 0 v) = .cnop) ∧
    (idx ≠ 0 → idx ≠ 2 → exec (decodeHost (mkHostWord 1 idx v)) s = .next s) ∧
    (9 ≤ idx.toNat → decodeHost (mkHostWord 0 idx v) = .rdRsvd idx)

/-- R174, R175, R178: what `RD.STATUS`, `RD.LEN`, `RD.CTRL` return, and `RD.BLKCNT`; none changes the engine. The
returned value is the newest of `replies` (log 3). -/
def Obligations.PlainReadsReturn : Prop :=
  ∀ (v : Word) (s : State),
    decodeHost (mkHostWord 0 1 v) = .rdStatus ∧ decodeHost (mkHostWord 0 2 v) = .rdLen ∧
    decodeHost (mkHostWord 0 3 v) = .rdBlkcnt ∧ decodeHost (mkHostWord 0 0 v) = .rdCtrl ∧
    exec .rdStatus s = .next { s with replies :=
      ((0#29 ++ BitVec.ofBool (s.phase == 0x8) ++ BitVec.ofBool (s.phase == 0x7) ++
        BitVec.ofBool (decide (1 ≤ s.phase.toNat) && decide (s.phase.toNat ≤ 6)) : BitVec (29 + 1 + 1 + 1))) ::
          s.replies } ∧
    exec .rdLen s = .next { s with replies := s.len :: s.replies } ∧
    exec .rdBlkcnt s = .next { s with replies := s.blkcnt :: s.replies } ∧
    exec .rdCtrl s = .next { s with replies := 0 :: s.replies }

/-- R177: `RD.Hi` returns `H[i]` if `DONE`, else an unspecified value, a fresh draw at every such read. The statement
holds whatever the drawn value is. -/
def Obligations.HashReadsNeedDone : Prop :=
  ∀ (v : Word) (s : State),
    decodeHost (mkHostWord 0 4 v) = .rdH0 ∧ decodeHost (mkHostWord 0 5 v) = .rdH1 ∧
    decodeHost (mkHostWord 0 6 v) = .rdH2 ∧ decodeHost (mkHostWord 0 7 v) = .rdH3 ∧
    decodeHost (mkHostWord 0 8 v) = .rdH4 ∧
    (done s = true →
      exec .rdH0 s = .next { s with replies := s.h[0] :: s.replies } ∧
      exec .rdH1 s = .next { s with replies := s.h[1] :: s.replies } ∧
      exec .rdH2 s = .next { s with replies := s.h[2] :: s.replies } ∧
      exec .rdH3 s = .next { s with replies := s.h[3] :: s.replies } ∧
      exec .rdH4 s = .next { s with replies := s.h[4] :: s.replies }) ∧
    (done s = false → ∀ i : Instr, i = .rdH0 ∨ i = .rdH1 ∨ i = .rdH2 ∨ i = .rdH3 ∨ i = .rdH4 →
      exec i s = .next { s with replies := Config.freeWord s.draws :: s.replies, draws := s.draws + 1 })

/-- R99: `STATUS` takes four values, by the phase; the reserved bits read 0. -/
def Obligations.StatusHasFourValues : Prop :=
  ∀ s : State,
    ((statusWord s).getLsbD 0 = true ↔ 1 ≤ s.phase.toNat ∧ s.phase.toNat ≤ 6) ∧
    ((statusWord s).getLsbD 1 = true ↔ s.phase = 0x7) ∧ ((statusWord s).getLsbD 2 = true ↔ s.phase = 0x8) ∧
    (s.phase = 0x0 → statusWord s = 0x0) ∧
    (1 ≤ s.phase.toNat → s.phase.toNat ≤ 6 → statusWord s = 0x1) ∧
    (s.phase = 0x7 → statusWord s = 0x2) ∧
    (s.phase = 0x8 → statusWord s = 0x4) ∧
    (∀ i : Nat, 3 ≤ i → (statusWord s).getLsbD i = false) ∧
    ((statusWord s).getLsbD 0 = pinBusy s ∧ (statusWord s).getLsbD 1 = pinDone s ∧ (statusWord s).getLsbD 2 = pinErr s)

/-! ### The whole machine -/

/-- R73: no instruction writes the message memory: every offset reads as before. -/
def Obligations.NoInstructionWritesMessage : Prop :=
  ∀ (i : Instr) (s t : State), exec i s = .next t →
    t.msg = s.msg ∧ ∀ off : Nat, messageByte t.msg off = messageByte s.msg off

/-- The access matrix (`10_state.md` section 11): which instruction may change which register. -/
def Obligations.AccessMatrix : Prop :=
  ∀ (i : Instr) (s t : State), exec i s = .next t →
    (t.h ≠ s.h → i = .start ∨ i = .addh) ∧
    ((t.a, t.b, t.c, t.d, t.e) ≠ (s.a, s.b, s.c, s.d, s.e) →
      i = .seed ∨ ∃ k, i = .rndCh k ∨ i = .rndP1 k ∨ i = .rndMaj k ∨ i = .rndP2 k) ∧
    (t.w ≠ s.w → ∃ k, i = .ldw k ∨ i = .exp k) ∧
    (t.blk ≠ s.blk → i = .pad) ∧
    (t.len ≠ s.len → busy s = false ∧ ∃ v, i = .wrLen v) ∧
    (t.rem ≠ s.rem → i = .start ∨ i = .pad) ∧
    (t.off ≠ s.off → i = .start ∨ i = .pad) ∧
    (t.finalFlag ≠ s.finalFlag → i = .start ∨ i = .pad) ∧
    (t.blkcnt ≠ s.blkcnt → i = .start ∨ i = .addh) ∧
    ((t.phase, t.t) ≠ (s.phase, s.t) → i = .start ∨ i.isEngine = true) ∧
    ((t.replies, t.draws) ≠ (s.replies, s.draws) → i.isEngine = false) ∧
    t.rst = s.rst ∧ t.agenda = s.agenda

/-- While `BUSY` no host transaction changes the engine or the message (`43_sequencer_and_host.md` section 4: "The
host cannot change the outcome of a run once it is started"). -/
def Obligations.HostCannotDisturbRun : Prop :=
  ∀ (s : State) (tw : HostWord), busy s = true →
    ∃ t, exec (decodeHost tw) s = .next t ∧ engineView t = engineView s

/-- `REM` never increases but by `START` (`10_state.md` section 8 item 2). -/
def Obligations.RemNeverIncreases : Prop :=
  ∀ (i : Instr) (s t : State), i ≠ .start → exec i s = .next t → t.rem.toNat ≤ s.rem.toNat

/-- While `BUSY` no step changes a byte of the message below `LEN`; an attempt, on a placed or an unplaced byte, is
refused by name (`20_memory.md` sections 1 and 6; that the attempt is refused is log 9). -/
def Obligations.MessageConstantDuringRun : Prop :=
  (∀ (s t : State) (off : Nat), busy s = true → step s = .next t → off < s.len.toNat →
    messageByte t.msg off = messageByte s.msg off) ∧
  (∀ (s : State) (offset : BitVec 29) (byte : Byte) (rest : List Turn), busy s = true →
    s.agenda = .message offset byte :: rest → offset.toNat < s.len.toNat →
    s.msg.read offset.toNat ≠ some byte → step s = .refused (.messageChangedDuringRun offset))

/-- The message memory is a map: a read after a write, and the canonical form kept; and a message turn that is not
refused writes its byte and nothing else (`20_memory.md` sections 1 and 6; the list form is the model's, log 8, and so
are the message turn and which of them go through, log 9). -/
def Obligations.MessageWriteThenRead : Prop :=
  (∀ (m : Memory) (off off' : Nat) (v : Byte),
    messageByte (m.write off v) off' = (if off' = off then v else messageByte m off') ∧
    (m.wf = true → off < 2 ^ 29 → (m.write off v).wf = true)) ∧
  (∀ (s : State) (offset : BitVec 29) (byte : Byte) (rest : List Turn), s.agenda = .message offset byte :: rest →
    busy s = false ∨ s.len.toNat ≤ offset.toNat ∨ s.msg.read offset.toNat = some byte →
    step s = .next { s with msg := s.msg.write offset.toNat byte, agenda := rest })

/-- Two canonical memories that read alike everywhere are the same list (log 8). -/
def Obligations.CanonicalMessageIsUnique : Prop :=
  ∀ m m' : Memory, m.wf = true → m'.wf = true → (∀ off : Nat, m.read off = m'.read off) → m = m'

/-- R77 item 4: once `DONE`, the digest, `BLKCNT` and `DONE` itself stay until an accepted `START` or a reset. -/
def Obligations.DigestStableWhileDone : Prop :=
  ∀ s t : State, done s = true → step s = .next t →
    (done t = true ∧ t.h = s.h ∧ t.blkcnt = s.blkcnt) ∨
    (s.rst = false ∧ ∃ tw, nextTurn s = .host tw ∧ decodeHost tw = .start) ∨ nextTurn s = .reset true

/-- `START` leaves nothing a later step could learn of the earlier run but hidden registers the run overwrites: two
engines with the same length agree on all that `START` writes (`10_state.md` section 7, `43` section 2). -/
def Obligations.StartForgetsEarlierRun : Prop :=
  ∀ s s' t t' : State, busy s = false → busy s' = false → s.len = s'.len → s.len.toNat ≤ 0x1FFFFFFF →
    exec .start s = .next t → exec .start s' = .next t' →
    t.h = t'.h ∧ t.rem = t'.rem ∧ t.off = t'.off ∧ t.t = t'.t ∧ t.phase = t'.phase ∧
    t.finalFlag = t'.finalFlag ∧ t.blkcnt = t'.blkcnt

/-- The invariant holds at reset. -/
def Obligations.ResetMeetsInvariant : Prop := Inv State.reset

/-- Every step keeps the invariant: legal control word, canonical message memory, `FINAL = 1` only with `REM = 0`, and
the position of a run (`10_state.md` section 8). -/
def Obligations.StepKeepsInvariant : Prop :=
  ∀ s t : State, Inv s → step s = .next t → Inv t

/-- Items 1 and 3 to 6 of `10_state.md` section 8, from the invariant. Item 2 is about steps, not states: `RemNeverIncreases`
says that `REM` never increases but by `START`, `PadTerminatesLongTail` and `PadEndsMessage` that cases 2 and 3 clear it. -/
def Obligations.InvariantGivesSpecInvariants : Prop :=
  ∀ s : State, Inv s →
    (s.phase = 0x1 → s.off.toNat + s.rem.toNat = s.len.toNat ∧ s.len.toNat ≤ 536870911 ∧
      (s.rem.toNat + 64 * s.blkcnt.toNat = s.len.toNat ∨ s.rem.toNat = 0)) ∧
    (s.phase = 0x1 → 64 ≤ s.rem.toNat → s.off.toNat + 64 ≤ s.len.toNat) ∧
    s.t.toNat < 80 ∧ s.phase.toNat ≤ 8 ∧
    (s.finalFlag = true → s.rem = 0) ∧
    (busy s = true → s.blkcnt.toNat + 1 ≤ (s.len.toNat + 72) / 64)

/-! ### Runs -/

/-- One pass from (LDW, 0): 162 steps replace `H` by `compress(H, BLK)`, count one block and decide on `FINAL`
(`42_compression.md` section 4). -/
def Obligations.BlockPassCompresses : Prop :=
  ∀ s : State, s.phase = 0x2 → s.t = 0 → s.rst = false → s.agenda = [] →
    ∃ t, Sys2Proof.core.run 162 s = .next t ∧ t.h = compress s.h s.blk ∧ t.blkcnt = s.blkcnt + 1 ∧
      t.phase = (if s.finalFlag then 0x7 else 0x1) ∧ t.t = 0 ∧ t.blk = s.blk ∧ t.len = s.len ∧ t.rem = s.rem ∧
      t.off = s.off ∧ t.finalFlag = s.finalFlag ∧ t.msg = s.msg ∧ t.rst = false ∧ t.agenda = []

/-- From any state that is not busy, `START` leads to the SHA-1 digest of the message for every admitted length, and
to failure with no digest above the bound (`00_scope.md` section 2). The number of steps is what the spec derives in
`43_sequencer_and_host.md` section 4; that the engine moves where nothing is queued is log 1. -/
def Obligations.RunComputesSha1 : Prop :=
  ∀ s : State, busy s = false → s.rst = false → s.agenda = [.host startWord] →
    (s.len.toNat ≤ 536870911 →
      ∃ t, Sys2Proof.core.run (1 + 163 * blocksNeeded s.len.toNat) s = .next t ∧ done t = true ∧
        t.h = sha1 (messageByte s.msg) s.len.toNat) ∧
    (536870911 < s.len.toNat →
      ∃ t, Sys2Proof.core.run 1 s = .next t ∧ err t = true ∧ done t = false ∧ t.h = s.h)

/-- A successful run takes 163 steps a block for `ceil((LEN + 9) / 64)` blocks, is busy all the way, and counts every
block (`43_sequencer_and_host.md` section 4). -/
def Obligations.RunLengthIsExact : Prop :=
  ∀ s : State, busy s = false → s.rst = false → s.agenda = [.host startWord] → s.len.toNat ≤ 536870911 →
    (∀ k, k < 163 * blocksNeeded s.len.toNat →
      ∃ t, Sys2Proof.core.run (1 + k) s = .next t ∧ busy t = true ∧ t.blkcnt.toNat = k / 163) ∧
    ∃ t, Sys2Proof.core.run (1 + 163 * blocksNeeded s.len.toNat) s = .next t ∧ done t = true ∧
      t.blkcnt.toNat = blocksNeeded s.len.toNat ∧ t.len = s.len

/-- However host transactions are interleaved with the engine's steps during a run, the engine ends in the same state
(`43_sequencer_and_host.md` section 4; `93` U13: claims must hold for every interleaving). -/
def Obligations.InterleavingDoesNotMatter : Prop :=
  ∀ (s u : State) (l : List Turn), s.rst = false → (∀ x ∈ l, engineOrHost x = true) →
    (∀ k, k ≤ engineTurns l → ∃ v, Sys2Proof.core.run k (engineView s) = .next v ∧ busy v = true) →
    Sys2Proof.core.run (engineTurns l + 1) (engineView s) = .next u →
    ∃ t, Sys2Proof.core.run (l.length + 1) { s with agenda := l ++ [.engine] } = .next t ∧
      engineView t = engineView u

/-- The same message and length give the same digest whatever the engine held before (`43` section 4, re-use). -/
def Obligations.ReuseGivesSameDigest : Prop :=
  ∀ s s' : State, busy s = false → busy s' = false → s.rst = false → s'.rst = false →
    s.agenda = [.host startWord] → s'.agenda = [.host startWord] → s.len = s'.len → s.len.toNat ≤ 536870911 →
    (∀ off, off < s.len.toNat → messageByte s.msg off = messageByte s'.msg off) →
    ∃ t t', Sys2Proof.core.run (1 + 163 * blocksNeeded s.len.toNat) s = .next t ∧
      Sys2Proof.core.run (1 + 163 * blocksNeeded s.len.toNat) s' = .next t' ∧
      done t = true ∧ done t' = true ∧ t.h = t'.h ∧ t.blkcnt = t'.blkcnt
end

