-- ==== Sys2Proof/Laws/State.lean ====
section
/-! SUPPORT. One lemma per field per named update of the state, true by rfl, so that no proof unfolds a record
update. -/

namespace Sys2Proof.Machine

open Sys2Proof

/-! ### `setPc` -/

@[simp] theorem setPc_h (p : PhaseCode) (x : Index) (s : State) : (setPc p x s).h = s.h := rfl
@[simp] theorem setPc_a (p : PhaseCode) (x : Index) (s : State) : (setPc p x s).a = s.a := rfl
@[simp] theorem setPc_b (p : PhaseCode) (x : Index) (s : State) : (setPc p x s).b = s.b := rfl
@[simp] theorem setPc_c (p : PhaseCode) (x : Index) (s : State) : (setPc p x s).c = s.c := rfl
@[simp] theorem setPc_d (p : PhaseCode) (x : Index) (s : State) : (setPc p x s).d = s.d := rfl
@[simp] theorem setPc_e (p : PhaseCode) (x : Index) (s : State) : (setPc p x s).e = s.e := rfl
@[simp] theorem setPc_w (p : PhaseCode) (x : Index) (s : State) : (setPc p x s).w = s.w := rfl
@[simp] theorem setPc_blk (p : PhaseCode) (x : Index) (s : State) : (setPc p x s).blk = s.blk := rfl
@[simp] theorem setPc_len (p : PhaseCode) (x : Index) (s : State) : (setPc p x s).len = s.len := rfl
@[simp] theorem setPc_rem (p : PhaseCode) (x : Index) (s : State) : (setPc p x s).rem = s.rem := rfl
@[simp] theorem setPc_off (p : PhaseCode) (x : Index) (s : State) : (setPc p x s).off = s.off := rfl
@[simp] theorem setPc_t (p : PhaseCode) (x : Index) (s : State) : (setPc p x s).t = x := rfl
@[simp] theorem setPc_phase (p : PhaseCode) (x : Index) (s : State) : (setPc p x s).phase = p := rfl
@[simp] theorem setPc_finalFlag (p : PhaseCode) (x : Index) (s : State) : (setPc p x s).finalFlag = s.finalFlag := rfl
@[simp] theorem setPc_blkcnt (p : PhaseCode) (x : Index) (s : State) : (setPc p x s).blkcnt = s.blkcnt := rfl
@[simp] theorem setPc_msg (p : PhaseCode) (x : Index) (s : State) : (setPc p x s).msg = s.msg := rfl
@[simp] theorem setPc_rst (p : PhaseCode) (x : Index) (s : State) : (setPc p x s).rst = s.rst := rfl
@[simp] theorem setPc_agenda (p : PhaseCode) (x : Index) (s : State) : (setPc p x s).agenda = s.agenda := rfl
@[simp] theorem setPc_replies (p : PhaseCode) (x : Index) (s : State) : (setPc p x s).replies = s.replies := rfl
@[simp] theorem setPc_draws (p : PhaseCode) (x : Index) (s : State) : (setPc p x s).draws = s.draws := rfl

/-! ### `setWord` -/

@[simp] theorem setWord_h (i : Nat) (v : Word) (s : State) : (setWord i v s).h = s.h := rfl
@[simp] theorem setWord_a (i : Nat) (v : Word) (s : State) : (setWord i v s).a = s.a := rfl
@[simp] theorem setWord_b (i : Nat) (v : Word) (s : State) : (setWord i v s).b = s.b := rfl
@[simp] theorem setWord_c (i : Nat) (v : Word) (s : State) : (setWord i v s).c = s.c := rfl
@[simp] theorem setWord_d (i : Nat) (v : Word) (s : State) : (setWord i v s).d = s.d := rfl
@[simp] theorem setWord_e (i : Nat) (v : Word) (s : State) : (setWord i v s).e = s.e := rfl
@[simp] theorem setWord_w (i : Nat) (v : Word) (s : State) : (setWord i v s).w = s.w.setIfInBounds i v := rfl
@[simp] theorem setWord_blk (i : Nat) (v : Word) (s : State) : (setWord i v s).blk = s.blk := rfl
@[simp] theorem setWord_len (i : Nat) (v : Word) (s : State) : (setWord i v s).len = s.len := rfl
@[simp] theorem setWord_rem (i : Nat) (v : Word) (s : State) : (setWord i v s).rem = s.rem := rfl
@[simp] theorem setWord_off (i : Nat) (v : Word) (s : State) : (setWord i v s).off = s.off := rfl
@[simp] theorem setWord_t (i : Nat) (v : Word) (s : State) : (setWord i v s).t = s.t := rfl
@[simp] theorem setWord_phase (i : Nat) (v : Word) (s : State) : (setWord i v s).phase = s.phase := rfl
@[simp] theorem setWord_finalFlag (i : Nat) (v : Word) (s : State) : (setWord i v s).finalFlag = s.finalFlag := rfl
@[simp] theorem setWord_blkcnt (i : Nat) (v : Word) (s : State) : (setWord i v s).blkcnt = s.blkcnt := rfl
@[simp] theorem setWord_msg (i : Nat) (v : Word) (s : State) : (setWord i v s).msg = s.msg := rfl
@[simp] theorem setWord_rst (i : Nat) (v : Word) (s : State) : (setWord i v s).rst = s.rst := rfl
@[simp] theorem setWord_agenda (i : Nat) (v : Word) (s : State) : (setWord i v s).agenda = s.agenda := rfl
@[simp] theorem setWord_replies (i : Nat) (v : Word) (s : State) : (setWord i v s).replies = s.replies := rfl
@[simp] theorem setWord_draws (i : Nat) (v : Word) (s : State) : (setWord i v s).draws = s.draws := rfl

/-! ### `setWorking` -/

@[simp] theorem setWorking_h (va vb vc vd ve : Word) (s : State) : (setWorking va vb vc vd ve s).h = s.h := rfl
@[simp] theorem setWorking_a (va vb vc vd ve : Word) (s : State) : (setWorking va vb vc vd ve s).a = va := rfl
@[simp] theorem setWorking_b (va vb vc vd ve : Word) (s : State) : (setWorking va vb vc vd ve s).b = vb := rfl
@[simp] theorem setWorking_c (va vb vc vd ve : Word) (s : State) : (setWorking va vb vc vd ve s).c = vc := rfl
@[simp] theorem setWorking_d (va vb vc vd ve : Word) (s : State) : (setWorking va vb vc vd ve s).d = vd := rfl
@[simp] theorem setWorking_e (va vb vc vd ve : Word) (s : State) : (setWorking va vb vc vd ve s).e = ve := rfl
@[simp] theorem setWorking_w (va vb vc vd ve : Word) (s : State) : (setWorking va vb vc vd ve s).w = s.w := rfl
@[simp] theorem setWorking_blk (va vb vc vd ve : Word) (s : State) : (setWorking va vb vc vd ve s).blk = s.blk := rfl
@[simp] theorem setWorking_len (va vb vc vd ve : Word) (s : State) : (setWorking va vb vc vd ve s).len = s.len := rfl
@[simp] theorem setWorking_rem (va vb vc vd ve : Word) (s : State) : (setWorking va vb vc vd ve s).rem = s.rem := rfl
@[simp] theorem setWorking_off (va vb vc vd ve : Word) (s : State) : (setWorking va vb vc vd ve s).off = s.off := rfl
@[simp] theorem setWorking_t (va vb vc vd ve : Word) (s : State) : (setWorking va vb vc vd ve s).t = s.t := rfl
@[simp] theorem setWorking_phase (va vb vc vd ve : Word) (s : State) : (setWorking va vb vc vd ve s).phase = s.phase := rfl
@[simp] theorem setWorking_finalFlag (va vb vc vd ve : Word) (s : State) : (setWorking va vb vc vd ve s).finalFlag = s.finalFlag := rfl
@[simp] theorem setWorking_blkcnt (va vb vc vd ve : Word) (s : State) : (setWorking va vb vc vd ve s).blkcnt = s.blkcnt := rfl
@[simp] theorem setWorking_msg (va vb vc vd ve : Word) (s : State) : (setWorking va vb vc vd ve s).msg = s.msg := rfl
@[simp] theorem setWorking_rst (va vb vc vd ve : Word) (s : State) : (setWorking va vb vc vd ve s).rst = s.rst := rfl
@[simp] theorem setWorking_agenda (va vb vc vd ve : Word) (s : State) : (setWorking va vb vc vd ve s).agenda = s.agenda := rfl
@[simp] theorem setWorking_replies (va vb vc vd ve : Word) (s : State) : (setWorking va vb vc vd ve s).replies = s.replies := rfl
@[simp] theorem setWorking_draws (va vb vc vd ve : Word) (s : State) : (setWorking va vb vc vd ve s).draws = s.draws := rfl

/-! ### `setHash` -/

@[simp] theorem setHash_h (v : Vector Word 5) (s : State) : (setHash v s).h = v := rfl
@[simp] theorem setHash_a (v : Vector Word 5) (s : State) : (setHash v s).a = s.a := rfl
@[simp] theorem setHash_b (v : Vector Word 5) (s : State) : (setHash v s).b = s.b := rfl
@[simp] theorem setHash_c (v : Vector Word 5) (s : State) : (setHash v s).c = s.c := rfl
@[simp] theorem setHash_d (v : Vector Word 5) (s : State) : (setHash v s).d = s.d := rfl
@[simp] theorem setHash_e (v : Vector Word 5) (s : State) : (setHash v s).e = s.e := rfl
@[simp] theorem setHash_w (v : Vector Word 5) (s : State) : (setHash v s).w = s.w := rfl
@[simp] theorem setHash_blk (v : Vector Word 5) (s : State) : (setHash v s).blk = s.blk := rfl
@[simp] theorem setHash_len (v : Vector Word 5) (s : State) : (setHash v s).len = s.len := rfl
@[simp] theorem setHash_rem (v : Vector Word 5) (s : State) : (setHash v s).rem = s.rem := rfl
@[simp] theorem setHash_off (v : Vector Word 5) (s : State) : (setHash v s).off = s.off := rfl
@[simp] theorem setHash_t (v : Vector Word 5) (s : State) : (setHash v s).t = s.t := rfl
@[simp] theorem setHash_phase (v : Vector Word 5) (s : State) : (setHash v s).phase = s.phase := rfl
@[simp] theorem setHash_finalFlag (v : Vector Word 5) (s : State) : (setHash v s).finalFlag = s.finalFlag := rfl
@[simp] theorem setHash_blkcnt (v : Vector Word 5) (s : State) : (setHash v s).blkcnt = s.blkcnt := rfl
@[simp] theorem setHash_msg (v : Vector Word 5) (s : State) : (setHash v s).msg = s.msg := rfl
@[simp] theorem setHash_rst (v : Vector Word 5) (s : State) : (setHash v s).rst = s.rst := rfl
@[simp] theorem setHash_agenda (v : Vector Word 5) (s : State) : (setHash v s).agenda = s.agenda := rfl
@[simp] theorem setHash_replies (v : Vector Word 5) (s : State) : (setHash v s).replies = s.replies := rfl
@[simp] theorem setHash_draws (v : Vector Word 5) (s : State) : (setHash v s).draws = s.draws := rfl

/-! ### `setPadded` -/

@[simp] theorem setPadded_h (vb : Vector Byte 64) (vo vr : Word) (vf : Bool) (s : State) : (setPadded vb vo vr vf s).h = s.h := rfl
@[simp] theorem setPadded_a (vb : Vector Byte 64) (vo vr : Word) (vf : Bool) (s : State) : (setPadded vb vo vr vf s).a = s.a := rfl
@[simp] theorem setPadded_b (vb : Vector Byte 64) (vo vr : Word) (vf : Bool) (s : State) : (setPadded vb vo vr vf s).b = s.b := rfl
@[simp] theorem setPadded_c (vb : Vector Byte 64) (vo vr : Word) (vf : Bool) (s : State) : (setPadded vb vo vr vf s).c = s.c := rfl
@[simp] theorem setPadded_d (vb : Vector Byte 64) (vo vr : Word) (vf : Bool) (s : State) : (setPadded vb vo vr vf s).d = s.d := rfl
@[simp] theorem setPadded_e (vb : Vector Byte 64) (vo vr : Word) (vf : Bool) (s : State) : (setPadded vb vo vr vf s).e = s.e := rfl
@[simp] theorem setPadded_w (vb : Vector Byte 64) (vo vr : Word) (vf : Bool) (s : State) : (setPadded vb vo vr vf s).w = s.w := rfl
@[simp] theorem setPadded_blk (vb : Vector Byte 64) (vo vr : Word) (vf : Bool) (s : State) : (setPadded vb vo vr vf s).blk = vb := rfl
@[simp] theorem setPadded_len (vb : Vector Byte 64) (vo vr : Word) (vf : Bool) (s : State) : (setPadded vb vo vr vf s).len = s.len := rfl
@[simp] theorem setPadded_rem (vb : Vector Byte 64) (vo vr : Word) (vf : Bool) (s : State) : (setPadded vb vo vr vf s).rem = vr := rfl
@[simp] theorem setPadded_off (vb : Vector Byte 64) (vo vr : Word) (vf : Bool) (s : State) : (setPadded vb vo vr vf s).off = vo := rfl
@[simp] theorem setPadded_t (vb : Vector Byte 64) (vo vr : Word) (vf : Bool) (s : State) : (setPadded vb vo vr vf s).t = 0 := rfl
@[simp] theorem setPadded_phase (vb : Vector Byte 64) (vo vr : Word) (vf : Bool) (s : State) : (setPadded vb vo vr vf s).phase = phaseLdw := rfl
@[simp] theorem setPadded_finalFlag (vb : Vector Byte 64) (vo vr : Word) (vf : Bool) (s : State) : (setPadded vb vo vr vf s).finalFlag = vf := rfl
@[simp] theorem setPadded_blkcnt (vb : Vector Byte 64) (vo vr : Word) (vf : Bool) (s : State) : (setPadded vb vo vr vf s).blkcnt = s.blkcnt := rfl
@[simp] theorem setPadded_msg (vb : Vector Byte 64) (vo vr : Word) (vf : Bool) (s : State) : (setPadded vb vo vr vf s).msg = s.msg := rfl
@[simp] theorem setPadded_rst (vb : Vector Byte 64) (vo vr : Word) (vf : Bool) (s : State) : (setPadded vb vo vr vf s).rst = s.rst := rfl
@[simp] theorem setPadded_agenda (vb : Vector Byte 64) (vo vr : Word) (vf : Bool) (s : State) : (setPadded vb vo vr vf s).agenda = s.agenda := rfl
@[simp] theorem setPadded_replies (vb : Vector Byte 64) (vo vr : Word) (vf : Bool) (s : State) : (setPadded vb vo vr vf s).replies = s.replies := rfl
@[simp] theorem setPadded_draws (vb : Vector Byte 64) (vo vr : Word) (vf : Bool) (s : State) : (setPadded vb vo vr vf s).draws = s.draws := rfl

/-! ### `setLen` -/

@[simp] theorem setLen_h (v : Word) (s : State) : (setLen v s).h = s.h := rfl
@[simp] theorem setLen_a (v : Word) (s : State) : (setLen v s).a = s.a := rfl
@[simp] theorem setLen_b (v : Word) (s : State) : (setLen v s).b = s.b := rfl
@[simp] theorem setLen_c (v : Word) (s : State) : (setLen v s).c = s.c := rfl
@[simp] theorem setLen_d (v : Word) (s : State) : (setLen v s).d = s.d := rfl
@[simp] theorem setLen_e (v : Word) (s : State) : (setLen v s).e = s.e := rfl
@[simp] theorem setLen_w (v : Word) (s : State) : (setLen v s).w = s.w := rfl
@[simp] theorem setLen_blk (v : Word) (s : State) : (setLen v s).blk = s.blk := rfl
@[simp] theorem setLen_len (v : Word) (s : State) : (setLen v s).len = v := rfl
@[simp] theorem setLen_rem (v : Word) (s : State) : (setLen v s).rem = s.rem := rfl
@[simp] theorem setLen_off (v : Word) (s : State) : (setLen v s).off = s.off := rfl
@[simp] theorem setLen_t (v : Word) (s : State) : (setLen v s).t = s.t := rfl
@[simp] theorem setLen_phase (v : Word) (s : State) : (setLen v s).phase = s.phase := rfl
@[simp] theorem setLen_finalFlag (v : Word) (s : State) : (setLen v s).finalFlag = s.finalFlag := rfl
@[simp] theorem setLen_blkcnt (v : Word) (s : State) : (setLen v s).blkcnt = s.blkcnt := rfl
@[simp] theorem setLen_msg (v : Word) (s : State) : (setLen v s).msg = s.msg := rfl
@[simp] theorem setLen_rst (v : Word) (s : State) : (setLen v s).rst = s.rst := rfl
@[simp] theorem setLen_agenda (v : Word) (s : State) : (setLen v s).agenda = s.agenda := rfl
@[simp] theorem setLen_replies (v : Word) (s : State) : (setLen v s).replies = s.replies := rfl
@[simp] theorem setLen_draws (v : Word) (s : State) : (setLen v s).draws = s.draws := rfl

/-! ### `countBlock` -/

@[simp] theorem countBlock_h (s : State) : (countBlock s).h = s.h := rfl
@[simp] theorem countBlock_a (s : State) : (countBlock s).a = s.a := rfl
@[simp] theorem countBlock_b (s : State) : (countBlock s).b = s.b := rfl
@[simp] theorem countBlock_c (s : State) : (countBlock s).c = s.c := rfl
@[simp] theorem countBlock_d (s : State) : (countBlock s).d = s.d := rfl
@[simp] theorem countBlock_e (s : State) : (countBlock s).e = s.e := rfl
@[simp] theorem countBlock_w (s : State) : (countBlock s).w = s.w := rfl
@[simp] theorem countBlock_blk (s : State) : (countBlock s).blk = s.blk := rfl
@[simp] theorem countBlock_len (s : State) : (countBlock s).len = s.len := rfl
@[simp] theorem countBlock_rem (s : State) : (countBlock s).rem = s.rem := rfl
@[simp] theorem countBlock_off (s : State) : (countBlock s).off = s.off := rfl
@[simp] theorem countBlock_t (s : State) : (countBlock s).t = s.t := rfl
@[simp] theorem countBlock_phase (s : State) : (countBlock s).phase = s.phase := rfl
@[simp] theorem countBlock_finalFlag (s : State) : (countBlock s).finalFlag = s.finalFlag := rfl
@[simp] theorem countBlock_blkcnt (s : State) : (countBlock s).blkcnt = s.blkcnt + 1 := rfl
@[simp] theorem countBlock_msg (s : State) : (countBlock s).msg = s.msg := rfl
@[simp] theorem countBlock_rst (s : State) : (countBlock s).rst = s.rst := rfl
@[simp] theorem countBlock_agenda (s : State) : (countBlock s).agenda = s.agenda := rfl
@[simp] theorem countBlock_replies (s : State) : (countBlock s).replies = s.replies := rfl
@[simp] theorem countBlock_draws (s : State) : (countBlock s).draws = s.draws := rfl

/-! ### `setMessage` -/

@[simp] theorem setMessage_h (o : Nat) (v : Byte) (s : State) : (setMessage o v s).h = s.h := rfl
@[simp] theorem setMessage_a (o : Nat) (v : Byte) (s : State) : (setMessage o v s).a = s.a := rfl
@[simp] theorem setMessage_b (o : Nat) (v : Byte) (s : State) : (setMessage o v s).b = s.b := rfl
@[simp] theorem setMessage_c (o : Nat) (v : Byte) (s : State) : (setMessage o v s).c = s.c := rfl
@[simp] theorem setMessage_d (o : Nat) (v : Byte) (s : State) : (setMessage o v s).d = s.d := rfl
@[simp] theorem setMessage_e (o : Nat) (v : Byte) (s : State) : (setMessage o v s).e = s.e := rfl
@[simp] theorem setMessage_w (o : Nat) (v : Byte) (s : State) : (setMessage o v s).w = s.w := rfl
@[simp] theorem setMessage_blk (o : Nat) (v : Byte) (s : State) : (setMessage o v s).blk = s.blk := rfl
@[simp] theorem setMessage_len (o : Nat) (v : Byte) (s : State) : (setMessage o v s).len = s.len := rfl
@[simp] theorem setMessage_rem (o : Nat) (v : Byte) (s : State) : (setMessage o v s).rem = s.rem := rfl
@[simp] theorem setMessage_off (o : Nat) (v : Byte) (s : State) : (setMessage o v s).off = s.off := rfl
@[simp] theorem setMessage_t (o : Nat) (v : Byte) (s : State) : (setMessage o v s).t = s.t := rfl
@[simp] theorem setMessage_phase (o : Nat) (v : Byte) (s : State) : (setMessage o v s).phase = s.phase := rfl
@[simp] theorem setMessage_finalFlag (o : Nat) (v : Byte) (s : State) : (setMessage o v s).finalFlag = s.finalFlag := rfl
@[simp] theorem setMessage_blkcnt (o : Nat) (v : Byte) (s : State) : (setMessage o v s).blkcnt = s.blkcnt := rfl
@[simp] theorem setMessage_msg (o : Nat) (v : Byte) (s : State) : (setMessage o v s).msg = s.msg.write o v := rfl
@[simp] theorem setMessage_rst (o : Nat) (v : Byte) (s : State) : (setMessage o v s).rst = s.rst := rfl
@[simp] theorem setMessage_agenda (o : Nat) (v : Byte) (s : State) : (setMessage o v s).agenda = s.agenda := rfl
@[simp] theorem setMessage_replies (o : Nat) (v : Byte) (s : State) : (setMessage o v s).replies = s.replies := rfl
@[simp] theorem setMessage_draws (o : Nat) (v : Byte) (s : State) : (setMessage o v s).draws = s.draws := rfl

/-! ### `setRst` -/

@[simp] theorem setRst_h (l : Bool) (s : State) : (setRst l s).h = s.h := rfl
@[simp] theorem setRst_a (l : Bool) (s : State) : (setRst l s).a = s.a := rfl
@[simp] theorem setRst_b (l : Bool) (s : State) : (setRst l s).b = s.b := rfl
@[simp] theorem setRst_c (l : Bool) (s : State) : (setRst l s).c = s.c := rfl
@[simp] theorem setRst_d (l : Bool) (s : State) : (setRst l s).d = s.d := rfl
@[simp] theorem setRst_e (l : Bool) (s : State) : (setRst l s).e = s.e := rfl
@[simp] theorem setRst_w (l : Bool) (s : State) : (setRst l s).w = s.w := rfl
@[simp] theorem setRst_blk (l : Bool) (s : State) : (setRst l s).blk = s.blk := rfl
@[simp] theorem setRst_len (l : Bool) (s : State) : (setRst l s).len = s.len := rfl
@[simp] theorem setRst_rem (l : Bool) (s : State) : (setRst l s).rem = s.rem := rfl
@[simp] theorem setRst_off (l : Bool) (s : State) : (setRst l s).off = s.off := rfl
@[simp] theorem setRst_t (l : Bool) (s : State) : (setRst l s).t = s.t := rfl
@[simp] theorem setRst_phase (l : Bool) (s : State) : (setRst l s).phase = s.phase := rfl
@[simp] theorem setRst_finalFlag (l : Bool) (s : State) : (setRst l s).finalFlag = s.finalFlag := rfl
@[simp] theorem setRst_blkcnt (l : Bool) (s : State) : (setRst l s).blkcnt = s.blkcnt := rfl
@[simp] theorem setRst_msg (l : Bool) (s : State) : (setRst l s).msg = s.msg := rfl
@[simp] theorem setRst_rst (l : Bool) (s : State) : (setRst l s).rst = l := rfl
@[simp] theorem setRst_agenda (l : Bool) (s : State) : (setRst l s).agenda = s.agenda := rfl
@[simp] theorem setRst_replies (l : Bool) (s : State) : (setRst l s).replies = s.replies := rfl
@[simp] theorem setRst_draws (l : Bool) (s : State) : (setRst l s).draws = s.draws := rfl

/-! ### `reply` -/

@[simp] theorem reply_h (v : Word) (s : State) : (reply v s).h = s.h := rfl
@[simp] theorem reply_a (v : Word) (s : State) : (reply v s).a = s.a := rfl
@[simp] theorem reply_b (v : Word) (s : State) : (reply v s).b = s.b := rfl
@[simp] theorem reply_c (v : Word) (s : State) : (reply v s).c = s.c := rfl
@[simp] theorem reply_d (v : Word) (s : State) : (reply v s).d = s.d := rfl
@[simp] theorem reply_e (v : Word) (s : State) : (reply v s).e = s.e := rfl
@[simp] theorem reply_w (v : Word) (s : State) : (reply v s).w = s.w := rfl
@[simp] theorem reply_blk (v : Word) (s : State) : (reply v s).blk = s.blk := rfl
@[simp] theorem reply_len (v : Word) (s : State) : (reply v s).len = s.len := rfl
@[simp] theorem reply_rem (v : Word) (s : State) : (reply v s).rem = s.rem := rfl
@[simp] theorem reply_off (v : Word) (s : State) : (reply v s).off = s.off := rfl
@[simp] theorem reply_t (v : Word) (s : State) : (reply v s).t = s.t := rfl
@[simp] theorem reply_phase (v : Word) (s : State) : (reply v s).phase = s.phase := rfl
@[simp] theorem reply_finalFlag (v : Word) (s : State) : (reply v s).finalFlag = s.finalFlag := rfl
@[simp] theorem reply_blkcnt (v : Word) (s : State) : (reply v s).blkcnt = s.blkcnt := rfl
@[simp] theorem reply_msg (v : Word) (s : State) : (reply v s).msg = s.msg := rfl
@[simp] theorem reply_rst (v : Word) (s : State) : (reply v s).rst = s.rst := rfl
@[simp] theorem reply_agenda (v : Word) (s : State) : (reply v s).agenda = s.agenda := rfl
@[simp] theorem reply_replies (v : Word) (s : State) : (reply v s).replies = v :: s.replies := rfl
@[simp] theorem reply_draws (v : Word) (s : State) : (reply v s).draws = s.draws := rfl

/-! ### `replyFree` -/

@[simp] theorem replyFree_h (s : State) : (replyFree s).h = s.h := rfl
@[simp] theorem replyFree_a (s : State) : (replyFree s).a = s.a := rfl
@[simp] theorem replyFree_b (s : State) : (replyFree s).b = s.b := rfl
@[simp] theorem replyFree_c (s : State) : (replyFree s).c = s.c := rfl
@[simp] theorem replyFree_d (s : State) : (replyFree s).d = s.d := rfl
@[simp] theorem replyFree_e (s : State) : (replyFree s).e = s.e := rfl
@[simp] theorem replyFree_w (s : State) : (replyFree s).w = s.w := rfl
@[simp] theorem replyFree_blk (s : State) : (replyFree s).blk = s.blk := rfl
@[simp] theorem replyFree_len (s : State) : (replyFree s).len = s.len := rfl
@[simp] theorem replyFree_rem (s : State) : (replyFree s).rem = s.rem := rfl
@[simp] theorem replyFree_off (s : State) : (replyFree s).off = s.off := rfl
@[simp] theorem replyFree_t (s : State) : (replyFree s).t = s.t := rfl
@[simp] theorem replyFree_phase (s : State) : (replyFree s).phase = s.phase := rfl
@[simp] theorem replyFree_finalFlag (s : State) : (replyFree s).finalFlag = s.finalFlag := rfl
@[simp] theorem replyFree_blkcnt (s : State) : (replyFree s).blkcnt = s.blkcnt := rfl
@[simp] theorem replyFree_msg (s : State) : (replyFree s).msg = s.msg := rfl
@[simp] theorem replyFree_rst (s : State) : (replyFree s).rst = s.rst := rfl
@[simp] theorem replyFree_agenda (s : State) : (replyFree s).agenda = s.agenda := rfl
@[simp] theorem replyFree_replies (s : State) : (replyFree s).replies = Config.freeWord s.draws :: s.replies := rfl
@[simp] theorem replyFree_draws (s : State) : (replyFree s).draws = s.draws + 1 := rfl

/-! ### `acceptStart` -/

@[simp] theorem acceptStart_h (s : State) : (acceptStart s).h = s.h := rfl
@[simp] theorem acceptStart_a (s : State) : (acceptStart s).a = s.a := rfl
@[simp] theorem acceptStart_b (s : State) : (acceptStart s).b = s.b := rfl
@[simp] theorem acceptStart_c (s : State) : (acceptStart s).c = s.c := rfl
@[simp] theorem acceptStart_d (s : State) : (acceptStart s).d = s.d := rfl
@[simp] theorem acceptStart_e (s : State) : (acceptStart s).e = s.e := rfl
@[simp] theorem acceptStart_w (s : State) : (acceptStart s).w = s.w := rfl
@[simp] theorem acceptStart_blk (s : State) : (acceptStart s).blk = s.blk := rfl
@[simp] theorem acceptStart_len (s : State) : (acceptStart s).len = s.len := rfl
@[simp] theorem acceptStart_rem (s : State) : (acceptStart s).rem = s.rem := rfl
@[simp] theorem acceptStart_off (s : State) : (acceptStart s).off = s.off := rfl
@[simp] theorem acceptStart_t (s : State) : (acceptStart s).t = s.t := rfl
@[simp] theorem acceptStart_phase (s : State) : (acceptStart s).phase = s.phase := rfl
@[simp] theorem acceptStart_finalFlag (s : State) : (acceptStart s).finalFlag = false := rfl
@[simp] theorem acceptStart_blkcnt (s : State) : (acceptStart s).blkcnt = 0 := rfl
@[simp] theorem acceptStart_msg (s : State) : (acceptStart s).msg = s.msg := rfl
@[simp] theorem acceptStart_rst (s : State) : (acceptStart s).rst = s.rst := rfl
@[simp] theorem acceptStart_agenda (s : State) : (acceptStart s).agenda = s.agenda := rfl
@[simp] theorem acceptStart_replies (s : State) : (acceptStart s).replies = s.replies := rfl
@[simp] theorem acceptStart_draws (s : State) : (acceptStart s).draws = s.draws := rfl

/-! ### `raiseLengthExceeded` -/

@[simp] theorem raiseLengthExceeded_h (s : State) : (raiseLengthExceeded s).h = s.h := rfl
@[simp] theorem raiseLengthExceeded_a (s : State) : (raiseLengthExceeded s).a = s.a := rfl
@[simp] theorem raiseLengthExceeded_b (s : State) : (raiseLengthExceeded s).b = s.b := rfl
@[simp] theorem raiseLengthExceeded_c (s : State) : (raiseLengthExceeded s).c = s.c := rfl
@[simp] theorem raiseLengthExceeded_d (s : State) : (raiseLengthExceeded s).d = s.d := rfl
@[simp] theorem raiseLengthExceeded_e (s : State) : (raiseLengthExceeded s).e = s.e := rfl
@[simp] theorem raiseLengthExceeded_w (s : State) : (raiseLengthExceeded s).w = s.w := rfl
@[simp] theorem raiseLengthExceeded_blk (s : State) : (raiseLengthExceeded s).blk = s.blk := rfl
@[simp] theorem raiseLengthExceeded_len (s : State) : (raiseLengthExceeded s).len = s.len := rfl
@[simp] theorem raiseLengthExceeded_rem (s : State) : (raiseLengthExceeded s).rem = s.rem := rfl
@[simp] theorem raiseLengthExceeded_off (s : State) : (raiseLengthExceeded s).off = s.off := rfl
@[simp] theorem raiseLengthExceeded_t (s : State) : (raiseLengthExceeded s).t = 0 := rfl
@[simp] theorem raiseLengthExceeded_phase (s : State) : (raiseLengthExceeded s).phase = phaseFail := rfl
@[simp] theorem raiseLengthExceeded_finalFlag (s : State) : (raiseLengthExceeded s).finalFlag = s.finalFlag := rfl
@[simp] theorem raiseLengthExceeded_blkcnt (s : State) : (raiseLengthExceeded s).blkcnt = s.blkcnt := rfl
@[simp] theorem raiseLengthExceeded_msg (s : State) : (raiseLengthExceeded s).msg = s.msg := rfl
@[simp] theorem raiseLengthExceeded_rst (s : State) : (raiseLengthExceeded s).rst = s.rst := rfl
@[simp] theorem raiseLengthExceeded_agenda (s : State) : (raiseLengthExceeded s).agenda = s.agenda := rfl
@[simp] theorem raiseLengthExceeded_replies (s : State) : (raiseLengthExceeded s).replies = s.replies := rfl
@[simp] theorem raiseLengthExceeded_draws (s : State) : (raiseLengthExceeded s).draws = s.draws := rfl

/-! ### `beginRun` -/

@[simp] theorem beginRun_h (s : State) : (beginRun s).h = ivWords := rfl
@[simp] theorem beginRun_a (s : State) : (beginRun s).a = s.a := rfl
@[simp] theorem beginRun_b (s : State) : (beginRun s).b = s.b := rfl
@[simp] theorem beginRun_c (s : State) : (beginRun s).c = s.c := rfl
@[simp] theorem beginRun_d (s : State) : (beginRun s).d = s.d := rfl
@[simp] theorem beginRun_e (s : State) : (beginRun s).e = s.e := rfl
@[simp] theorem beginRun_w (s : State) : (beginRun s).w = s.w := rfl
@[simp] theorem beginRun_blk (s : State) : (beginRun s).blk = s.blk := rfl
@[simp] theorem beginRun_len (s : State) : (beginRun s).len = s.len := rfl
@[simp] theorem beginRun_rem (s : State) : (beginRun s).rem = s.len := rfl
@[simp] theorem beginRun_off (s : State) : (beginRun s).off = 0 := rfl
@[simp] theorem beginRun_t (s : State) : (beginRun s).t = 0 := rfl
@[simp] theorem beginRun_phase (s : State) : (beginRun s).phase = phasePad := rfl
@[simp] theorem beginRun_finalFlag (s : State) : (beginRun s).finalFlag = s.finalFlag := rfl
@[simp] theorem beginRun_blkcnt (s : State) : (beginRun s).blkcnt = s.blkcnt := rfl
@[simp] theorem beginRun_msg (s : State) : (beginRun s).msg = s.msg := rfl
@[simp] theorem beginRun_rst (s : State) : (beginRun s).rst = s.rst := rfl
@[simp] theorem beginRun_agenda (s : State) : (beginRun s).agenda = s.agenda := rfl
@[simp] theorem beginRun_replies (s : State) : (beginRun s).replies = s.replies := rfl
@[simp] theorem beginRun_draws (s : State) : (beginRun s).draws = s.draws := rfl

/-! ### `takeTurn` -/

@[simp] theorem takeTurn_h (s : State) : (takeTurn s).h = s.h := rfl
@[simp] theorem takeTurn_a (s : State) : (takeTurn s).a = s.a := rfl
@[simp] theorem takeTurn_b (s : State) : (takeTurn s).b = s.b := rfl
@[simp] theorem takeTurn_c (s : State) : (takeTurn s).c = s.c := rfl
@[simp] theorem takeTurn_d (s : State) : (takeTurn s).d = s.d := rfl
@[simp] theorem takeTurn_e (s : State) : (takeTurn s).e = s.e := rfl
@[simp] theorem takeTurn_w (s : State) : (takeTurn s).w = s.w := rfl
@[simp] theorem takeTurn_blk (s : State) : (takeTurn s).blk = s.blk := rfl
@[simp] theorem takeTurn_len (s : State) : (takeTurn s).len = s.len := rfl
@[simp] theorem takeTurn_rem (s : State) : (takeTurn s).rem = s.rem := rfl
@[simp] theorem takeTurn_off (s : State) : (takeTurn s).off = s.off := rfl
@[simp] theorem takeTurn_t (s : State) : (takeTurn s).t = s.t := rfl
@[simp] theorem takeTurn_phase (s : State) : (takeTurn s).phase = s.phase := rfl
@[simp] theorem takeTurn_finalFlag (s : State) : (takeTurn s).finalFlag = s.finalFlag := rfl
@[simp] theorem takeTurn_blkcnt (s : State) : (takeTurn s).blkcnt = s.blkcnt := rfl
@[simp] theorem takeTurn_msg (s : State) : (takeTurn s).msg = s.msg := rfl
@[simp] theorem takeTurn_rst (s : State) : (takeTurn s).rst = s.rst := rfl
@[simp] theorem takeTurn_agenda (s : State) : (takeTurn s).agenda = s.agenda.tail := rfl
@[simp] theorem takeTurn_replies (s : State) : (takeTurn s).replies = s.replies := rfl
@[simp] theorem takeTurn_draws (s : State) : (takeTurn s).draws = s.draws := rfl

/-! ### `applyReset`: the values the spec gives, and what is not the engine's -/

@[simp] theorem applyReset_len (s : State) : (applyReset s).len = 0 := rfl
@[simp] theorem applyReset_t (s : State) : (applyReset s).t = 0 := rfl
@[simp] theorem applyReset_phase (s : State) : (applyReset s).phase = phaseIdle := rfl
@[simp] theorem applyReset_finalFlag (s : State) : (applyReset s).finalFlag = false := rfl
@[simp] theorem applyReset_blkcnt (s : State) : (applyReset s).blkcnt = 0 := rfl
@[simp] theorem applyReset_msg (s : State) : (applyReset s).msg = s.msg := rfl
@[simp] theorem applyReset_rst (s : State) : (applyReset s).rst = s.rst := rfl
@[simp] theorem applyReset_agenda (s : State) : (applyReset s).agenda = s.agenda := rfl
@[simp] theorem applyReset_replies (s : State) : (applyReset s).replies = s.replies := rfl
@[simp] theorem applyReset_draws (s : State) : (applyReset s).draws = s.draws + 156 := rfl

/-- Asserting `rst`. -/
@[simp] theorem resetTurn_true (s : State) : resetTurn true s = setRst true (applyReset s) := rfl

/-- Releasing `rst`. -/
@[simp] theorem resetTurn_false (s : State) : resetTurn false s = setRst false s := rfl

/-! ### `advance` -/

@[simp] theorem advance_h (p : PhaseCode) (x : Index) (last : Nat) (p' : PhaseCode) (x' : Index) (s : State) :
    (advance p x last p' x' s).h = s.h := by unfold advance; split <;> rfl
@[simp] theorem advance_a (p : PhaseCode) (x : Index) (last : Nat) (p' : PhaseCode) (x' : Index) (s : State) :
    (advance p x last p' x' s).a = s.a := by unfold advance; split <;> rfl
@[simp] theorem advance_b (p : PhaseCode) (x : Index) (last : Nat) (p' : PhaseCode) (x' : Index) (s : State) :
    (advance p x last p' x' s).b = s.b := by unfold advance; split <;> rfl
@[simp] theorem advance_c (p : PhaseCode) (x : Index) (last : Nat) (p' : PhaseCode) (x' : Index) (s : State) :
    (advance p x last p' x' s).c = s.c := by unfold advance; split <;> rfl
@[simp] theorem advance_d (p : PhaseCode) (x : Index) (last : Nat) (p' : PhaseCode) (x' : Index) (s : State) :
    (advance p x last p' x' s).d = s.d := by unfold advance; split <;> rfl
@[simp] theorem advance_e (p : PhaseCode) (x : Index) (last : Nat) (p' : PhaseCode) (x' : Index) (s : State) :
    (advance p x last p' x' s).e = s.e := by unfold advance; split <;> rfl
@[simp] theorem advance_w (p : PhaseCode) (x : Index) (last : Nat) (p' : PhaseCode) (x' : Index) (s : State) :
    (advance p x last p' x' s).w = s.w := by unfold advance; split <;> rfl
@[simp] theorem advance_blk (p : PhaseCode) (x : Index) (last : Nat) (p' : PhaseCode) (x' : Index) (s : State) :
    (advance p x last p' x' s).blk = s.blk := by unfold advance; split <;> rfl
@[simp] theorem advance_len (p : PhaseCode) (x : Index) (last : Nat) (p' : PhaseCode) (x' : Index) (s : State) :
    (advance p x last p' x' s).len = s.len := by unfold advance; split <;> rfl
@[simp] theorem advance_rem (p : PhaseCode) (x : Index) (last : Nat) (p' : PhaseCode) (x' : Index) (s : State) :
    (advance p x last p' x' s).rem = s.rem := by unfold advance; split <;> rfl
@[simp] theorem advance_off (p : PhaseCode) (x : Index) (last : Nat) (p' : PhaseCode) (x' : Index) (s : State) :
    (advance p x last p' x' s).off = s.off := by unfold advance; split <;> rfl
@[simp] theorem advance_finalFlag (p : PhaseCode) (x : Index) (last : Nat) (p' : PhaseCode) (x' : Index) (s : State) :
    (advance p x last p' x' s).finalFlag = s.finalFlag := by unfold advance; split <;> rfl
@[simp] theorem advance_blkcnt (p : PhaseCode) (x : Index) (last : Nat) (p' : PhaseCode) (x' : Index) (s : State) :
    (advance p x last p' x' s).blkcnt = s.blkcnt := by unfold advance; split <;> rfl
@[simp] theorem advance_msg (p : PhaseCode) (x : Index) (last : Nat) (p' : PhaseCode) (x' : Index) (s : State) :
    (advance p x last p' x' s).msg = s.msg := by unfold advance; split <;> rfl
@[simp] theorem advance_rst (p : PhaseCode) (x : Index) (last : Nat) (p' : PhaseCode) (x' : Index) (s : State) :
    (advance p x last p' x' s).rst = s.rst := by unfold advance; split <;> rfl
@[simp] theorem advance_agenda (p : PhaseCode) (x : Index) (last : Nat) (p' : PhaseCode) (x' : Index) (s : State) :
    (advance p x last p' x' s).agenda = s.agenda := by unfold advance; split <;> rfl
@[simp] theorem advance_replies (p : PhaseCode) (x : Index) (last : Nat) (p' : PhaseCode) (x' : Index) (s : State) :
    (advance p x last p' x' s).replies = s.replies := by unfold advance; split <;> rfl
@[simp] theorem advance_draws (p : PhaseCode) (x : Index) (last : Nat) (p' : PhaseCode) (x' : Index) (s : State) :
    (advance p x last p' x' s).draws = s.draws := by unfold advance; split <;> rfl

/-- The control word after `advance`, the last index told apart (`43_sequencer_and_host.md` R170). -/
theorem advance_pc (p : PhaseCode) (x : Index) (last : Nat) (p' : PhaseCode) (x' : Index) (s : State) :
    (x.toNat < last ∧ (advance p x last p' x' s).phase = p ∧ (advance p x last p' x' s).t = x + 1) ∨
    (last ≤ x.toNat ∧ (advance p x last p' x' s).phase = p' ∧ (advance p x last p' x' s).t = x') := by
  unfold advance
  split
  · exact .inl ⟨‹_›, rfl, rfl⟩
  · exact .inr ⟨Nat.le_of_not_lt ‹_›, rfl, rfl⟩

/-! ### `replyHash` -/

/-- `RD.Hi` changes only what the host has been told and how many draws were made. -/
theorem replyHash_eq (i : Fin 5) (s : State) :
    replyHash i s = if done s then { s with replies := s.h[i] :: s.replies }
      else { s with replies := Config.freeWord s.draws :: s.replies, draws := s.draws + 1 } := rfl

@[simp] theorem replyHash_h (i : Fin 5) (s : State) : (replyHash i s).h = s.h := by unfold replyHash; split <;> rfl
@[simp] theorem replyHash_a (i : Fin 5) (s : State) : (replyHash i s).a = s.a := by unfold replyHash; split <;> rfl
@[simp] theorem replyHash_b (i : Fin 5) (s : State) : (replyHash i s).b = s.b := by unfold replyHash; split <;> rfl
@[simp] theorem replyHash_c (i : Fin 5) (s : State) : (replyHash i s).c = s.c := by unfold replyHash; split <;> rfl
@[simp] theorem replyHash_d (i : Fin 5) (s : State) : (replyHash i s).d = s.d := by unfold replyHash; split <;> rfl
@[simp] theorem replyHash_e (i : Fin 5) (s : State) : (replyHash i s).e = s.e := by unfold replyHash; split <;> rfl
@[simp] theorem replyHash_w (i : Fin 5) (s : State) : (replyHash i s).w = s.w := by unfold replyHash; split <;> rfl
@[simp] theorem replyHash_blk (i : Fin 5) (s : State) : (replyHash i s).blk = s.blk := by unfold replyHash; split <;> rfl
@[simp] theorem replyHash_len (i : Fin 5) (s : State) : (replyHash i s).len = s.len := by unfold replyHash; split <;> rfl
@[simp] theorem replyHash_rem (i : Fin 5) (s : State) : (replyHash i s).rem = s.rem := by unfold replyHash; split <;> rfl
@[simp] theorem replyHash_off (i : Fin 5) (s : State) : (replyHash i s).off = s.off := by unfold replyHash; split <;> rfl
@[simp] theorem replyHash_t (i : Fin 5) (s : State) : (replyHash i s).t = s.t := by unfold replyHash; split <;> rfl
@[simp] theorem replyHash_phase (i : Fin 5) (s : State) : (replyHash i s).phase = s.phase := by unfold replyHash; split <;> rfl
@[simp] theorem replyHash_finalFlag (i : Fin 5) (s : State) : (replyHash i s).finalFlag = s.finalFlag := by unfold replyHash; split <;> rfl
@[simp] theorem replyHash_blkcnt (i : Fin 5) (s : State) : (replyHash i s).blkcnt = s.blkcnt := by unfold replyHash; split <;> rfl
@[simp] theorem replyHash_msg (i : Fin 5) (s : State) : (replyHash i s).msg = s.msg := by unfold replyHash; split <;> rfl
@[simp] theorem replyHash_rst (i : Fin 5) (s : State) : (replyHash i s).rst = s.rst := by unfold replyHash; split <;> rfl
@[simp] theorem replyHash_agenda (i : Fin 5) (s : State) : (replyHash i s).agenda = s.agenda := by unfold replyHash; split <;> rfl

end Sys2Proof.Machine
end

