-- ==== Sys2Proof/Laws/Meanings.lean ====
section
/-! SUPPORT. One lemma per meaning that says once when it answers a next state and which one, and the forms of a
step, so that no later proof unfolds a meaning. -/

namespace Sys2Proof.Machine

open Sys2Proof

/-- A meaning behind one check answers a next state exactly when the check holds. -/
theorem guarded_next {b : Bool} {x t : State} {r : Result} (hr : ∀ u, r ≠ .next u) :
    (if b then .next x else r : Result) = .next t ↔ b = true ∧ t = x := by
  cases b with
  | true => exact ⟨fun h => ⟨rfl, by cases h; rfl⟩, fun h => by rw [h.2]; rfl⟩
  | false => exact ⟨fun h => absurd h (hr t), fun h => nomatch h.1⟩

theorem execPad_next {s t : State} : execPad s = .next t ↔ padReadable s = true ∧ t = padded s := by
  exact guarded_next fun _ h => nomatch h

theorem execLdw_next {i : Index} {s t : State} : execLdw i s = .next t ↔
    indexIn 0 15 i = true ∧
      t = advance phaseLdw i 15 phaseExp 16 (setWord i.toNat (blockWord s.blk i.toNat) s) := by
  exact guarded_next fun _ h => nomatch h

theorem execExp_next {i : Index} {s t : State} : execExp i s = .next t ↔
    indexIn 16 79 i = true ∧
      t = advance phaseExp i 79 phaseSeed 0 (setWord i.toNat (expandWord s.w i.toNat) s) := by
  exact guarded_next fun _ h => nomatch h

theorem execSeed_eq (s : State) :
    execSeed s = .next (setPc phaseRnd 0 (setWorking s.h[0] s.h[1] s.h[2] s.h[3] s.h[4] s)) := rfl

theorem execRndCh_next {i : Index} {s t : State} : execRndCh i s = .next t ↔
    indexIn 0 19 i = true ∧ t = roundUpdate (fCh s.b s.c s.d) k0 i s := by
  exact guarded_next fun _ h => nomatch h

theorem execRndP1_next {i : Index} {s t : State} : execRndP1 i s = .next t ↔
    indexIn 20 39 i = true ∧ t = roundUpdate (fP1 s.b s.c s.d) k1 i s := by
  exact guarded_next fun _ h => nomatch h

theorem execRndMaj_next {i : Index} {s t : State} : execRndMaj i s = .next t ↔
    indexIn 40 59 i = true ∧ t = roundUpdate (fMaj s.b s.c s.d) k2 i s := by
  exact guarded_next fun _ h => nomatch h

theorem execRndP2_next {i : Index} {s t : State} : execRndP2 i s = .next t ↔
    indexIn 60 79 i = true ∧ t = roundUpdate (fP2 s.b s.c s.d) k3 i s := by
  exact guarded_next fun _ h => nomatch h

/-- The round update writes `A..E` and the control word only (`42_compression.md` R151). -/
theorem roundUpdate_eq (f k : Word) (i : Index) (s : State) : roundUpdate f k i s =
    advance phaseRnd i 79 phaseAddh 0
      (setWorking (roundTmp s.a f s.e k (wordAt s.w i.toNat)) s.a (rotl 30 s.b) s.c s.d s) := rfl

theorem execAddh_eq (s : State) : execAddh s = .next
    (setPc (if s.finalFlag then phaseDone else phasePad) 0 (setHash (addedHash s) (countBlock s))) := rfl

/-- The three outcomes of `START` (`43_sequencer_and_host.md` R171). -/
theorem execStart_cases (s : State) :
    (busy s = true ∧ execStart s = .next s) ∨
    (busy s = false ∧ lengthExceeded s.len = true ∧ execStart s = .next (raiseLengthExceeded (acceptStart s))) ∨
    (busy s = false ∧ lengthExceeded s.len = false ∧ execStart s = .next (beginRun (acceptStart s))) := by
  unfold execStart
  cases hb : busy s <;> cases hl : lengthExceeded s.len <;> simp

/-- `WR.LEN` (`43_sequencer_and_host.md` R173). -/
theorem execWrLen_cases (v : Word) (s : State) :
    (busy s = true ∧ execWrLen v s = .next s) ∨ (busy s = false ∧ execWrLen v s = .next (setLen v s)) := by
  unfold execWrLen
  cases hb : busy s <;> simp

/-- Everything a step can do, by what its turn presents (`43_sequencer_and_host.md` R183). -/
theorem step_next_cases {s t : State} (h : step s = .next t) :
    (present s = .nothing ∧ t = takeTurn s) ∨
    (∃ f i, present s = .word f ∧ decode f = .ok i ∧ exec i (takeTurn s) = .next t) ∨
    (∃ offset byte, present s = .message offset byte ∧ messageTurn offset byte (takeTurn s) = .next t) ∨
    (∃ asserted, present s = .reset asserted ∧ t = resetTurn asserted (takeTurn s)) := by
  unfold step at h
  split at h
  · exact .inl ⟨‹_›, by simpa using h.symm⟩
  · split at h
    · exact .inr (.inl ⟨_, _, ‹_›, ‹_›, h⟩)
    · simp at h
  · exact .inr (.inr (.inl ⟨_, _, ‹_›, h⟩))
  · exact .inr (.inr (.inr ⟨_, ‹_›, by simpa using h.symm⟩))

/-- What a word presented by a turn is (`30_encoding.md` R90). -/
theorem present_word {s : State} {f : Fetched} (h : present s = .word f) :
    s.rst = false ∧ ((nextTurn s = .engine ∧ f = .control (controlWord s)) ∨
      ∃ tw, nextTurn s = .host tw ∧ f = .host tw) := by
  unfold present at h
  cases hn : nextTurn s with
  | engine => cases hr : s.rst <;> simp_all
  | host tw => cases hr : s.rst <;> simp_all
  | message => simp_all
  | reset => simp_all

/-- One step at the front of a run. -/
theorem run_succ_eq (k : Nat) (s : State) : Sys2Proof.core.run (k + 1) s =
    (match step s with
      | .next t => Sys2Proof.core.run k t
      | .fault r => .fault r
      | .refused r => .refused r) := by
  cases h : step s <;> simp [Host.Core.run, Sys2Proof.core, h]

theorem run_succ {s t : State} (k : Nat) (h : step s = .next t) :
    Sys2Proof.core.run (k + 1) s = Sys2Proof.core.run k t := by
  rw [run_succ_eq, h]

/-- A run that answers a next state begins with a step that does. -/
theorem run_succ_next {s t : State} {k : Nat} (h : Sys2Proof.core.run (k + 1) s = .next t) :
    ∃ u, step s = .next u ∧ Sys2Proof.core.run k u = .next t := by
  rw [run_succ_eq] at h
  cases hs : step s with
  | next u => rw [hs] at h; exact ⟨u, rfl, h⟩
  | fault r => rw [hs] at h; exact nomatch h
  | refused r => rw [hs] at h; exact nomatch h

/-- Runs join. -/
theorem run_add {s t : State} (j k : Nat) (h : Sys2Proof.core.run j s = .next t) :
    Sys2Proof.core.run (j + k) s = Sys2Proof.core.run k t := by
  induction j generalizing s with
  | zero =>
    rw [Nat.zero_add]
    cases h
    rfl
  | succ j ih =>
    obtain ⟨u, hs, hu⟩ := run_succ_next h
    rw [show j + 1 + k = (j + k) + 1 by omega, run_succ _ hs]
    exact ih hu

/-- Two runs that answer next states, one after the other. -/
theorem run_append {s t u : State} {j k : Nat} (h : Sys2Proof.core.run j s = .next t)
    (h' : Sys2Proof.core.run k t = .next u) : Sys2Proof.core.run (j + k) s = .next u := by
  rw [run_add j k h, h']

/-- A run of one step. -/
theorem run_one {s t : State} (h : step s = .next t) : Sys2Proof.core.run 1 s = .next t := by
  rw [run_succ 0 h]
  simp [Host.Core.run]

end Sys2Proof.Machine
end

