-- ==== Sys2Proof/Laws/Memory.lean ====
section
/-! SUPPORT. The message memory: read after write, and the canonical form. -/

namespace Sys2Proof.Machine

open Sys2Proof

@[simp] theorem Memory.read_nil (off : Nat) : Memory.read [] off = none := rfl

theorem Memory.read_cons (x : Nat) (v : Byte) (m : Memory) (off : Nat) :
    Memory.read ((x, v) :: m) off = if x = off then some v else Memory.read m off := rfl

/-- A read of the offset written gives the byte written. -/
theorem Memory.read_write_same (m : Memory) (off : Nat) (v : Byte) : (m.write off v).read off = some v := by
  induction m with
  | nil => simp [Memory.write, Memory.read]
  | cons c m ih =>
    obtain ⟨x, u⟩ := c
    simp only [Memory.write]
    split
    · simp [Memory.read]
    · split
      · simp_all [Memory.read]
      · rename_i h; simp [Memory.read, ih, Ne.symm h]

/-- A write leaves every other offset alone. -/
theorem Memory.read_write_other (m : Memory) {off off' : Nat} (v : Byte) (hne : off' ≠ off) :
    (m.write off v).read off' = m.read off' := by
  induction m with
  | nil => simp [Memory.write, Memory.read, Ne.symm hne]
  | cons c m ih =>
    obtain ⟨x, u⟩ := c
    simp only [Memory.write]
    split
    · simp [Memory.read, Ne.symm hne]
    · split
      · subst_vars; simp [Memory.read, Ne.symm hne]
      · simp [Memory.read, ih]

/-- A write above `lo` keeps the rise above `lo`. -/
theorem Memory.risesAbove_write (m : Memory) {lo off : Nat} (v : Byte) (hlo : lo < off) (hoff : off < messageSpace)
    (h : m.risesAbove lo = true) : (m.write off v).risesAbove lo = true := by
  induction m generalizing lo with
  | nil => simp [Memory.write, Memory.risesAbove, hlo, hoff]
  | cons c m ih =>
    obtain ⟨x, u⟩ := c
    simp only [Memory.risesAbove, Bool.and_eq_true, decide_eq_true_eq] at h
    obtain ⟨⟨h1, h2⟩, h3⟩ := h
    simp only [Memory.write]
    split
    · simp [Memory.risesAbove, *]
    · split
      · simp [Memory.risesAbove, *]
      · have hx : x < off := by omega
        simp [Memory.risesAbove, h1, h2, ih hx h3]

/-- Every write inside the message space keeps the canonical form. -/
theorem Memory.wf_write (m : Memory) {off : Nat} (v : Byte) (hoff : off < messageSpace) (h : m.wf = true) :
    (m.write off v).wf = true := by
  cases m with
  | nil => simp [Memory.write, Memory.wf, Memory.risesAbove, hoff]
  | cons c m =>
    obtain ⟨x, u⟩ := c
    simp only [Memory.wf, Bool.and_eq_true, decide_eq_true_eq] at h
    obtain ⟨h1, h2⟩ := h
    simp only [Memory.write]
    split
    · simp [Memory.wf, Memory.risesAbove, *]
    · split
      · simp [Memory.wf, *]
      · have hx : x < off := by omega
        simp [Memory.wf, h1, Memory.risesAbove_write m v hx hoff h2]

/-- The memory after reset has the canonical form. -/
theorem reset_msg_wf : State.reset.msg.wf = true := rfl

/-- A message turn writes one byte of the message, or is refused because it would change a running message. -/
theorem messageTurn_cases (offset : BitVec 29) (byte : Byte) (s : State) :
    messageTurn offset byte s = .next (setMessage offset.toNat byte s) ∧
        (busy s = true → offset.toNat < s.len.toNat → s.msg.read offset.toNat = some byte) ∨
      messageTurn offset byte s = .refused (.messageChangedDuringRun offset) ∧ busy s = true ∧
        offset.toNat < s.len.toNat := by
  unfold messageTurn
  split
  · rename_i h
    simp only [Bool.and_eq_true, decide_eq_true_eq] at h
    exact .inr ⟨rfl, h.1.1, h.1.2⟩
  · rename_i h
    refine .inl ⟨rfl, fun hb hl => ?_⟩
    by_contra hne
    exact h (by simp [hb, hl, hne])

end Sys2Proof.Machine
end

