-- ==== Sys2Proof/Laws/Padding.lean ====
section
/-! SUPPORT. What `PAD` leaves alone, when its reads are answered, and its two conditions as statements on numbers. -/

namespace Sys2Proof.Machine

open Sys2Proof

/-! ### What every `PAD` leaves alone, and where it goes (`40_padding.md` R127) -/

@[simp] theorem padded_h (s : State) : (padded s).h = s.h := by
  unfold padded; split
  · simp
  · split <;> simp
@[simp] theorem padded_a (s : State) : (padded s).a = s.a := by
  unfold padded; split
  · simp
  · split <;> simp
@[simp] theorem padded_b (s : State) : (padded s).b = s.b := by
  unfold padded; split
  · simp
  · split <;> simp
@[simp] theorem padded_c (s : State) : (padded s).c = s.c := by
  unfold padded; split
  · simp
  · split <;> simp
@[simp] theorem padded_d (s : State) : (padded s).d = s.d := by
  unfold padded; split
  · simp
  · split <;> simp
@[simp] theorem padded_e (s : State) : (padded s).e = s.e := by
  unfold padded; split
  · simp
  · split <;> simp
@[simp] theorem padded_w (s : State) : (padded s).w = s.w := by
  unfold padded; split
  · simp
  · split <;> simp
@[simp] theorem padded_len (s : State) : (padded s).len = s.len := by
  unfold padded; split
  · simp
  · split <;> simp
@[simp] theorem padded_blkcnt (s : State) : (padded s).blkcnt = s.blkcnt := by
  unfold padded; split
  · simp
  · split <;> simp
@[simp] theorem padded_msg (s : State) : (padded s).msg = s.msg := by
  unfold padded; split
  · simp
  · split <;> simp
@[simp] theorem padded_rst (s : State) : (padded s).rst = s.rst := by
  unfold padded; split
  · simp
  · split <;> simp
@[simp] theorem padded_agenda (s : State) : (padded s).agenda = s.agenda := by
  unfold padded; split
  · simp
  · split <;> simp
@[simp] theorem padded_replies (s : State) : (padded s).replies = s.replies := by
  unfold padded; split
  · simp
  · split <;> simp
@[simp] theorem padded_draws (s : State) : (padded s).draws = s.draws := by
  unfold padded; split
  · simp
  · split <;> simp
@[simp] theorem padded_phase (s : State) : (padded s).phase = phaseLdw := by
  unfold padded; split
  · simp
  · split <;> simp
@[simp] theorem padded_t (s : State) : (padded s).t = 0 := by
  unfold padded; split
  · simp
  · split <;> simp

/-- The three cases, chosen on `REM` (R121). -/
theorem padded_cases (s : State) :
    (64 ≤ s.rem.toNat ∧ padded s = setPadded (blockOf (padByteFull s)) (s.off + 64) (sub32 s.rem 64) false s) ∨
    (56 ≤ s.rem.toNat ∧ s.rem.toNat < 64 ∧
      padded s = setPadded (blockOf (padByteTail s)) (s.off + s.rem) 0 false s) ∨
    (s.rem.toNat < 56 ∧ padded s = setPadded (blockOf (padByteLast s)) (s.off + s.rem) 0 true s) := by
  unfold padded
  split
  · exact .inl ⟨‹_›, rfl⟩
  · split
    · exact .inr (.inl ⟨‹_›, Nat.lt_of_not_le ‹_›, rfl⟩)
    · exact .inr (.inr ⟨Nat.lt_of_not_le ‹_›, rfl⟩)

/-- A byte of a block. -/
@[simp] theorem blockOf_getElem (f : Nat → Byte) (i : Nat) (hi : i < 64) : (blockOf f)[i] = f i := by
  simp [blockOf]

/-- A byte of a block, by a Fin. -/
@[simp] theorem blockOf_fin (f : Nat → Byte) (i : Fin 64) : (blockOf f)[i] = f i.val :=
  blockOf_getElem f i.val i.isLt

/-- The reads are answered exactly when every offset lies in the message space (`20_memory.md` R61). -/
theorem padReadable_iff (s : State) :
    padReadable s = true ↔ ∀ i, i < padCount s.rem → s.off.toNat + i < 2 ^ 29 := by
  simp only [padReadable, padOffsets, List.all_eq_true, List.mem_map, List.mem_range, messageSpace]
  constructor
  · intro h i hi
    exact of_decide_eq_true (h _ ⟨i, hi, rfl⟩)
  · rintro h _ ⟨i, hi, rfl⟩
    exact decide_eq_true (h i hi)

/-- The terminator condition (`40_padding.md` R124). -/
theorem terminatorDue_iff (r len : Word) : terminatorDue r len = true ↔ r.toNat ≠ 0 ∨ len.toNat % 64 = 0 := by
  have hr : r = 0 ↔ r.toNat = 0 :=
    ⟨fun h => by rw [h]; rfl, fun h => BitVec.eq_of_toNat_eq (by simpa using h)⟩
  have hl : len.extractLsb' 0 6 = 0 ↔ len.toNat % 64 = 0 := by
    constructor
    · intro h
      simpa [BitVec.extractLsb'_toNat] using congrArg BitVec.toNat h
    · intro h
      apply BitVec.eq_of_toNat_eq
      simpa [BitVec.extractLsb'_toNat] using h
  unfold terminatorDue
  simp only [Bool.or_eq_true, bne_iff_ne, beq_iff_eq, ne_eq]
  rw [hr, hl]

end Sys2Proof.Machine
end

