-- ==== Sys2Proof/Laws/Words.lean ====
section
/-! SUPPORT. The fields of the two word formats, and the arithmetic in Lean's own terms. -/

namespace Sys2Proof

/-- The phase field of an assembled control word. -/
@[simp] theorem cwPhase_mk (p : PhaseCode) (t : Index) : cwPhase (mkControlWord p t) = p := by
  unfold cwPhase mkControlWord
  ext i hi
  rw [BitVec.getElem_extractLsb', BitVec.getLsbD_append]
  simp [BitVec.getLsbD_eq_getElem hi]

/-- The index field of an assembled control word. -/
@[simp] theorem cwIndex_mk (p : PhaseCode) (t : Index) : cwIndex (mkControlWord p t) = t := by
  unfold cwIndex mkControlWord
  ext i hi
  rw [BitVec.getElem_extractLsb', BitVec.getLsbD_append]
  simp [hi]

/-- A control word is its two fields. -/
theorem mkControlWord_fields (cw : ControlWord) : mkControlWord (cwPhase cw) (cwIndex cw) = cw := by
  unfold cwPhase cwIndex mkControlWord
  ext i hi
  simp only [BitVec.getElem_append, BitVec.getElem_extractLsb']
  split
  · simp [← BitVec.getLsbD_eq_getElem]
  · rename_i h
    rw [← BitVec.getLsbD_eq_getElem]
    congr 1
    omega

/-- The `WR` field of an assembled host word. -/
@[simp] theorem hwWrite_mk (wr : BitVec 1) (idx : BitVec 4) (data : Word) : hwWrite (mkHostWord wr idx data) = wr := by
  unfold hwWrite mkHostWord
  ext i hi
  have : i = 0 := by omega
  subst this
  rw [BitVec.getElem_extractLsb', BitVec.getLsbD_append, BitVec.getLsbD_append]
  simp

/-- The `IDX` field of an assembled host word. -/
@[simp] theorem hwIdx_mk (wr : BitVec 1) (idx : BitVec 4) (data : Word) : hwIdx (mkHostWord wr idx data) = idx := by
  unfold hwIdx mkHostWord
  ext i hi
  have h1 : 32 + i < 36 := by omega
  simp only [BitVec.getElem_extractLsb', BitVec.getLsbD_append]
  simp [hi]

/-- The `DATA` field of an assembled host word. -/
@[simp] theorem hwData_mk (wr : BitVec 1) (idx : BitVec 4) (data : Word) : hwData (mkHostWord wr idx data) = data := by
  unfold hwData mkHostWord
  ext i hi
  simp only [BitVec.getElem_extractLsb', BitVec.getLsbD_append]
  simp [hi]

/-- A host word is its three fields. -/
theorem mkHostWord_fields (tw : HostWord) : mkHostWord (hwWrite tw) (hwIdx tw) (hwData tw) = tw := by
  unfold hwWrite hwIdx hwData mkHostWord
  ext i hi
  simp only [BitVec.getElem_append, BitVec.getElem_extractLsb']
  split
  · simp [← BitVec.getLsbD_eq_getElem]
  · split
    · rename_i h1 h2
      rw [← BitVec.getLsbD_eq_getElem]
      congr 1
      omega
    · rename_i h1 h2
      rw [← BitVec.getLsbD_eq_getElem]
      congr 1
      omega

/-- `W[i]` is the entry of the vector (`00_scope.md` R14). -/
@[simp] theorem Machine.wordAt_of_lt (w : Vector Word 80) (i : Nat) (h : i < 80) : Machine.wordAt w i = w[i] := by
  simp [Machine.wordAt, h]

/-- `BLK[i]` is the entry of the vector (`00_scope.md` R14). -/
@[simp] theorem Machine.byteAt_of_lt (blk : Vector Byte 64) (i : Nat) (h : i < 64) : Machine.byteAt blk i = blk[i] := by
  simp [Machine.byteAt, h]

/-- `ROTL` is Lean's rotation to the left (`00_scope.md` R13). -/
theorem Machine.rotl_eq_rotateLeft {n : Nat} (hn : n < 32) (x : Word) : Machine.rotl n x = x.rotateLeft n := by
  unfold Machine.rotl
  rw [BitVec.rotateLeft_def]
  simp [Nat.mod_eq_of_lt hn]

end Sys2Proof
end

