-- ==== Sys2Proof/Laws/PerInstr.lean ====
section
/-! SUPPORT. The statements made per instruction. The family TableRow: the word of a well-formed instruction lies in
a row of spec/opcode_table.json that bears its mnemonic (`30_encoding.md` R105). -/

namespace Sys2Proof.Laws

open Sys2Proof

/-- The word of `i` lies in a row of the opcode table with its mnemonic. -/
def TableRow.Statement (i : Instr) : Prop :=
  WellFormed i → (opcodeRows.any fun row => row.mnemonic == i.mnemonic && row.covers (encode i)) = true

/-- A host word as a number: the two fields above, the data below. -/
theorem mkHostWord_toNat (wr : BitVec 1) (idx : BitVec 4) (data : Word) :
    (mkHostWord wr idx data).toNat = 2 ^ 32 * (wr ++ idx).toNat + data.toNat := by
  unfold mkHostWord
  rw [BitVec.toNat_append, Nat.shiftLeft_eq, Nat.mul_comm,
    ← Nat.two_pow_add_eq_or_of_lt data.isLt]

/-- A mask of the upper five bits leaves those of the fields. -/
theorem mkHostWord_and (wr : BitVec 1) (idx : BitVec 4) (data : Word) (k : Nat) :
    (mkHostWord wr idx data).toNat &&& (2 ^ 32 * k) = 2 ^ 32 * ((wr ++ idx).toNat &&& k) := by
  rw [mkHostWord_toNat]
  apply Nat.eq_of_testBit_eq
  intro i
  rw [Nat.testBit_and, Nat.testBit_two_pow_mul_add _ data.isLt, Nat.testBit_two_pow_mul, Nat.testBit_two_pow_mul]
  by_cases h : i < 32
  · simp [h, Nat.not_le.mpr h]
  · simp [h, Nat.le_of_not_lt h, Nat.testBit_and]

/-- A row given by the five upper bits alone covers a host word when its fields match. -/
theorem covers_host (m : String) (p k : Nat) (wr : BitVec 1) (idx : BitVec 4) (data : Word)
    (h : (wr ++ idx).toNat &&& k = p) :
    OpcodeRow.covers ⟨m, 37, 2 ^ 32 * p, 2 ^ 32 * k⟩ (.host (mkHostWord wr idx data)) = true := by
  simp only [OpcodeRow.covers, mkHostWord_and, h]
  simp

/-- Finding a row of the table. -/
theorem any_of_row {i : Instr} (row : OpcodeRow) (hmem : row ∈ opcodeRows) (hm : row.mnemonic = i.mnemonic)
    (hc : row.covers (encode i) = true) :
    (opcodeRows.any fun row => row.mnemonic == i.mnemonic && row.covers (encode i)) = true :=
  List.any_eq_true.mpr ⟨row, hmem, by simp [hm, hc]⟩

theorem TableRow.hltIdle : TableRow.Statement .hltIdle := by unfold TableRow.Statement; decide

theorem TableRow.pad : TableRow.Statement .pad := by unfold TableRow.Statement; decide

theorem TableRow.seed : TableRow.Statement .seed := by unfold TableRow.Statement; decide

theorem TableRow.addh : TableRow.Statement .addh := by unfold TableRow.Statement; decide

theorem TableRow.hltDone : TableRow.Statement .hltDone := by unfold TableRow.Statement; decide

theorem TableRow.hltFail : TableRow.Statement .hltFail := by unfold TableRow.Statement; decide

theorem TableRow.start : TableRow.Statement .start := by unfold TableRow.Statement; decide

theorem TableRow.cnop : TableRow.Statement .cnop := by unfold TableRow.Statement; decide

theorem TableRow.rdCtrl : TableRow.Statement .rdCtrl := by unfold TableRow.Statement; decide

theorem TableRow.rdStatus : TableRow.Statement .rdStatus := by unfold TableRow.Statement; decide

theorem TableRow.rdLen : TableRow.Statement .rdLen := by unfold TableRow.Statement; decide

theorem TableRow.rdBlkcnt : TableRow.Statement .rdBlkcnt := by unfold TableRow.Statement; decide

theorem TableRow.rdH0 : TableRow.Statement .rdH0 := by unfold TableRow.Statement; decide

theorem TableRow.rdH1 : TableRow.Statement .rdH1 := by unfold TableRow.Statement; decide

theorem TableRow.rdH2 : TableRow.Statement .rdH2 := by unfold TableRow.Statement; decide

theorem TableRow.rdH3 : TableRow.Statement .rdH3 := by unfold TableRow.Statement; decide

theorem TableRow.rdH4 : TableRow.Statement .rdH4 := by unfold TableRow.Statement; decide

theorem TableRow.ldw : ∀ t : Index, TableRow.Statement (.ldw t) := by unfold TableRow.Statement; decide

theorem TableRow.exp : ∀ t : Index, TableRow.Statement (.exp t) := by unfold TableRow.Statement; decide

theorem TableRow.rndCh : ∀ t : Index, TableRow.Statement (.rndCh t) := by unfold TableRow.Statement; decide

theorem TableRow.rndP1 : ∀ t : Index, TableRow.Statement (.rndP1 t) := by unfold TableRow.Statement; decide

theorem TableRow.rndMaj : ∀ t : Index, TableRow.Statement (.rndMaj t) := by unfold TableRow.Statement; decide

theorem TableRow.rndP2 : ∀ t : Index, TableRow.Statement (.rndP2 t) := by unfold TableRow.Statement; decide

theorem TableRow.wrStatus (v : Word) : TableRow.Statement (.wrStatus v) := fun _ =>
  any_of_row ⟨"WR.STATUS", 37, 2 ^ 32 * 17, 2 ^ 32 * 31⟩ (by decide) rfl (covers_host _ 17 31 _ _ v (by decide))

theorem TableRow.wrLen (v : Word) : TableRow.Statement (.wrLen v) := fun _ =>
  any_of_row ⟨"WR.LEN", 37, 2 ^ 32 * 18, 2 ^ 32 * 31⟩ (by decide) rfl (covers_host _ 18 31 _ _ v (by decide))

theorem TableRow.wrBlkcnt (v : Word) : TableRow.Statement (.wrBlkcnt v) := fun _ =>
  any_of_row ⟨"WR.BLKCNT", 37, 2 ^ 32 * 19, 2 ^ 32 * 31⟩ (by decide) rfl (covers_host _ 19 31 _ _ v (by decide))

theorem TableRow.wrH0 (v : Word) : TableRow.Statement (.wrH0 v) := fun _ =>
  any_of_row ⟨"WR.H0", 37, 2 ^ 32 * 20, 2 ^ 32 * 31⟩ (by decide) rfl (covers_host _ 20 31 _ _ v (by decide))

theorem TableRow.wrH1 (v : Word) : TableRow.Statement (.wrH1 v) := fun _ =>
  any_of_row ⟨"WR.H1", 37, 2 ^ 32 * 21, 2 ^ 32 * 31⟩ (by decide) rfl (covers_host _ 21 31 _ _ v (by decide))

theorem TableRow.wrH2 (v : Word) : TableRow.Statement (.wrH2 v) := fun _ =>
  any_of_row ⟨"WR.H2", 37, 2 ^ 32 * 22, 2 ^ 32 * 31⟩ (by decide) rfl (covers_host _ 22 31 _ _ v (by decide))

theorem TableRow.wrH3 (v : Word) : TableRow.Statement (.wrH3 v) := fun _ =>
  any_of_row ⟨"WR.H3", 37, 2 ^ 32 * 23, 2 ^ 32 * 31⟩ (by decide) rfl (covers_host _ 23 31 _ _ v (by decide))

theorem TableRow.wrH4 (v : Word) : TableRow.Statement (.wrH4 v) := fun _ =>
  any_of_row ⟨"WR.H4", 37, 2 ^ 32 * 24, 2 ^ 32 * 31⟩ (by decide) rfl (covers_host _ 24 31 _ _ v (by decide))

/-- The reserved slots fall into the table's three rows. -/
theorem wrRsvd_rows : ∀ idx : BitVec 4, reservedSlot idx = true →
    ((1#1 ++ idx).toNat &&& 31 = 25) ∨ ((1#1 ++ idx).toNat &&& 30 = 26) ∨
      ((1#1 ++ idx).toNat &&& 28 = 28) := by decide

theorem TableRow.wrRsvd (idx : BitVec 4) (v : Word) : TableRow.Statement (.wrRsvd idx v) := fun hw => by
  rcases wrRsvd_rows idx hw with h | h | h
  · exact any_of_row ⟨"WR.RSVD", 37, 2 ^ 32 * 25, 2 ^ 32 * 31⟩ (by decide) rfl (covers_host _ 25 31 1#1 idx v h)
  · exact any_of_row ⟨"WR.RSVD", 37, 2 ^ 32 * 26, 2 ^ 32 * 30⟩ (by decide) rfl (covers_host _ 26 30 1#1 idx v h)
  · exact any_of_row ⟨"WR.RSVD", 37, 2 ^ 32 * 28, 2 ^ 32 * 28⟩ (by decide) rfl (covers_host _ 28 28 1#1 idx v h)

/-- The reserved slots fall into the table's three rows. -/
theorem rdRsvd_rows : ∀ idx : BitVec 4, reservedSlot idx = true →
    ((0#1 ++ idx).toNat &&& 31 = 9) ∨ ((0#1 ++ idx).toNat &&& 30 = 10) ∨
      ((0#1 ++ idx).toNat &&& 28 = 12) := by decide

theorem TableRow.rdRsvd (idx : BitVec 4) : TableRow.Statement (.rdRsvd idx) := fun hw => by
  rcases rdRsvd_rows idx hw with h | h | h
  · exact any_of_row ⟨"RD.RSVD", 37, 2 ^ 32 * 9, 2 ^ 32 * 31⟩ (by decide) rfl (covers_host _ 9 31 0#1 idx 0 h)
  · exact any_of_row ⟨"RD.RSVD", 37, 2 ^ 32 * 10, 2 ^ 32 * 30⟩ (by decide) rfl (covers_host _ 10 30 0#1 idx 0 h)
  · exact any_of_row ⟨"RD.RSVD", 37, 2 ^ 32 * 12, 2 ^ 32 * 28⟩ (by decide) rfl (covers_host _ 12 28 0#1 idx 0 h)

end Sys2Proof.Laws
end

