-- ==== Sys2Proof/Laws/Reference.lean ====
section
/-! SUPPORT. The machine's operations against the reference function of Safety, which is written without them. -/

namespace Sys2Proof.Machine

open Sys2Proof Sys2Proof.Safety

/-- Four bytes side by side are their shifted disjunction (`41_schedule.md` R140). -/
theorem bigEndian_eq (b0 b1 b2 b3 : Byte) : bigEndian b0 b1 b2 b3 =
    b0.setWidth 32 <<< 24 ||| b1.setWidth 32 <<< 16 ||| b2.setWidth 32 <<< 8 ||| b3.setWidth 32 := by
  apply BitVec.eq_of_getLsbD_eq
  intro i hi
  have h : (bigEndian b0 b1 b2 b3).getLsbD i = (b0 ++ b1 ++ b2 ++ b3 : BitVec (8 + 8 + 8 + 8)).getLsbD i := rfl
  rw [h, BitVec.getLsbD_append, BitVec.getLsbD_append, BitVec.getLsbD_append]
  interval_cases i <;> simp

/-- What `LDW` loads. -/
theorem blockWord_eq_loadedWord (blk : Vector Byte 64) (t : Nat) (h : t < 16) :
    blockWord blk t = loadedWord blk t h := by
  unfold blockWord loadedWord
  rw [bigEndian_eq, byteAt_of_lt _ _ (by omega), byteAt_of_lt _ _ (by omega), byteAt_of_lt _ _ (by omega),
    byteAt_of_lt _ _ (by omega)]

/-- What `EXP` computes. -/
theorem expandWord_eq_expandedWord (w : Vector Word 80) (t : Nat) (h : t < 80) :
    expandWord w t = expandedWord w t h := by
  unfold expandWord expandedWord
  rw [rotl_eq_rotateLeft (by omega), wordAt_of_lt _ _ (by omega), wordAt_of_lt _ _ (by omega),
    wordAt_of_lt _ _ (by omega), wordAt_of_lt _ _ (by omega)]

/-- What `START` loads. -/
theorem ivWords_eq_initialHash : ivWords = initialHash := rfl

end Sys2Proof.Machine
end

