-- ==== Sys2Proof/Tests/Slice0.lean ====
section
/-! SUPPORT. The model's own tests: the smoke test of WellFormed, one word per constructor written out from the
spec's encodings, single steps with expected values from `95_test_vectors.md`, and for every obligation with
hypotheses a witness that meets them. -/

namespace Sys2Proof.Tests

open Sys2Proof Sys2Proof.Machine Sys2Proof.Safety

/-! ### Helpers -/

/-- What a view of the next state shows, if there is one. -/
def got {α : Type} (f : State → α) : Result → Option α
  | .next s => some (f s)
  | .fault _ => none
  | .refused _ => none

/-- The fault, if there is one. -/
def faultOf : Result → Option Fault
  | .next _ => none
  | .fault r => some r
  | .refused _ => none

/-- The refusal, if there is one. -/
def refusalOf : Result → Option Refusal
  | .next _ => none
  | .fault _ => none
  | .refused r => some r

/-- `n` bytes `0xAA` from offset `lo` on, the message of `95_test_vectors.md` section 2.1. -/
def filled (lo n : Nat) : Memory := (List.range n).map fun i => (lo + i, 0xAA)

/-- The state before a `PAD` of section 2.1. -/
def padState (len rem off : Word) (m : Memory) : State :=
  { State.reset with len := len, rem := rem, off := off, msg := m, phase := phasePad }

/-- Bytes of the block. -/
def bytesAt (l : List Nat) (s : State) : List Byte := l.map (byteAt s.blk)

/-- `BLK[i .. i+3]` holding four bytes. -/
def blkState (i : Nat) (b0 b1 b2 b3 : Byte) : State :=
  { State.reset with
    blk := (((State.reset.blk.setIfInBounds i b0).setIfInBounds (i + 1) b1).setIfInBounds (i + 2) b2).setIfInBounds
      (i + 3) b3 }

/-- `W[t-3]`, `W[t-8]`, `W[t-14]`, `W[t-16]` of section 2.3. -/
def expState (t : Nat) (w3 w8 w14 w16 : Word) : State :=
  { State.reset with
    w := (((State.reset.w.setIfInBounds (t - 3) w3).setIfInBounds (t - 8) w8).setIfInBounds (t - 14)
      w14).setIfInBounds (t - 16) w16 }

/-- Input set Z of section 2.5. -/
def setZ (t : Nat) : State :=
  { State.reset with
    a := 0x80000001, b := 0x00000003, c := 0x0F0F0F0F, d := 0x33333333, e := 0x55555555
    w := State.reset.w.setIfInBounds t 0x12345678 }

/-- Input set Y of section 2.5. -/
def setY (t : Nat) : State :=
  { State.reset with
    a := 0xFFFFFFFF, b := 0xFFFFFFFF, c := 0xFFFFFFFF, d := 0xFFFFFFFF, e := 0xFFFFFFFF
    w := State.reset.w.setIfInBounds t 0xFFFFFFFF }

/-- The working registers. -/
def working (s : State) : List Word := [s.a, s.b, s.c, s.d, s.e]

/-- A state in a phase, with a length. -/
def inPhase (p : PhaseCode) (len : Word) : State := { State.reset with phase := p, len := len }

/-- The state after "abc" (section 4, H-12). -/
def afterAbc : State :=
  { State.reset with
    phase := phaseDone, finalFlag := true, len := 3, off := 3, blkcnt := 1
    h := #v[0xA9993E36, 0x4706816A, 0xBA3E2571, 0x7850C26C, 0x9CD0D89D] }

/-! ### WellFormed refuses an ill-formed term for each check (`30_encoding.md` R93, R97) -/

theorem test_wellFormed_refuses :
    [.ldw 16, .exp 15, .exp 80, .rndCh 20, .rndP1 19, .rndP1 40, .rndMaj 39, .rndMaj 60, .rndP2 59, .rndP2 80, .wrRsvd 8 0, .rdRsvd 8].map Instr.wellFormed =
      List.replicate 12 false := by decide

theorem test_wellFormed_accepts :
    [.ldw 0, .ldw 15, .exp 16, .exp 79, .rndCh 0, .rndCh 19, .rndP1 20, .rndP1 39, .rndMaj 40, .rndMaj 59, .rndP2 60,
      .rndP2 79, .wrRsvd 9 0, .wrRsvd 15 0, .rdRsvd 9, .rdRsvd 15].map Instr.wellFormed =
      List.replicate 16 true := by decide

/-! ### One word for each constructor, its fields written out as R91 and R96 lay them out -/

theorem test_decode_hltIdle : decode (.control 0b0000_0000000#11) = .ok (.hltIdle) := by decide
theorem test_decode_pad : decode (.control 0b0001_0000000#11) = .ok (.pad) := by decide
theorem test_decode_ldw : decode (.control 0b0010_0001111#11) = .ok (.ldw 15) := by decide
theorem test_decode_exp : decode (.control 0b0011_0010000#11) = .ok (.exp 16) := by decide
theorem test_decode_seed : decode (.control 0b0100_0000000#11) = .ok (.seed) := by decide
theorem test_decode_rndCh : decode (.control 0b0101_0010011#11) = .ok (.rndCh 19) := by decide
theorem test_decode_rndP1 : decode (.control 0b0101_0010100#11) = .ok (.rndP1 20) := by decide
theorem test_decode_rndMaj : decode (.control 0b0101_0111011#11) = .ok (.rndMaj 59) := by decide
theorem test_decode_rndP2 : decode (.control 0b0101_0111100#11) = .ok (.rndP2 60) := by decide
theorem test_decode_addh : decode (.control 0b0110_0000000#11) = .ok (.addh) := by decide
theorem test_decode_hltDone : decode (.control 0b0111_0000000#11) = .ok (.hltDone) := by decide
theorem test_decode_hltFail : decode (.control 0b1000_0000000#11) = .ok (.hltFail) := by decide
theorem test_decode_start :
    decode (.host 0b1_0000_11111111_11111111_11111111_11111111#37) = .ok (.start) := by decide
theorem test_decode_cnop :
    decode (.host 0b1_0000_11111111_11111111_11111111_11111110#37) = .ok (.cnop) := by decide
theorem test_decode_wrStatus :
    decode (.host 0b1_0001_00000000_00000000_00000000_00000111#37) = .ok (.wrStatus 7) := by decide
theorem test_decode_wrLen :
    decode (.host 0b1_0010_00000000_00000000_00000000_00000011#37) = .ok (.wrLen 3) := by decide
theorem test_decode_wrBlkcnt :
    decode (.host 0b1_0011_00000000_00000000_00000000_00000001#37) = .ok (.wrBlkcnt 1) := by decide
theorem test_decode_wrH0 :
    decode (.host 0b1_0100_10000000_00000000_00000000_00000000#37) = .ok (.wrH0 0x80000000) := by decide
theorem test_decode_wrH1 :
    decode (.host 0b1_0101_10000000_00000000_00000000_00000001#37) = .ok (.wrH1 0x80000001) := by decide
theorem test_decode_wrH2 :
    decode (.host 0b1_0110_10000000_00000000_00000000_00000010#37) = .ok (.wrH2 0x80000002) := by decide
theorem test_decode_wrH3 :
    decode (.host 0b1_0111_10000000_00000000_00000000_00000011#37) = .ok (.wrH3 0x80000003) := by decide
theorem test_decode_wrH4 :
    decode (.host 0b1_1000_10000000_00000000_00000000_00000100#37) = .ok (.wrH4 0x80000004) := by decide
theorem test_decode_wrRsvd :
    decode (.host 0b1_1001_00000000_00000000_00000000_00000101#37) = .ok (.wrRsvd 9 5) := by decide
theorem test_decode_rdCtrl :
    decode (.host 0b0_0000_00000000_00000000_00000000_00000000#37) = .ok (.rdCtrl) := by decide
theorem test_decode_rdStatus :
    decode (.host 0b0_0001_00000000_00000000_00000000_00000000#37) = .ok (.rdStatus) := by decide
theorem test_decode_rdLen :
    decode (.host 0b0_0010_11111111_11111111_11111111_11111111#37) = .ok (.rdLen) := by decide
theorem test_decode_rdBlkcnt :
    decode (.host 0b0_0011_00000000_00000000_00000000_00000000#37) = .ok (.rdBlkcnt) := by decide
theorem test_decode_rdH0 :
    decode (.host 0b0_0100_00000000_00000000_00000000_00000000#37) = .ok (.rdH0) := by decide
theorem test_decode_rdH1 :
    decode (.host 0b0_0101_00000000_00000000_00000000_00000000#37) = .ok (.rdH1) := by decide
theorem test_decode_rdH2 :
    decode (.host 0b0_0110_00000000_00000000_00000000_00000000#37) = .ok (.rdH2) := by decide
theorem test_decode_rdH3 :
    decode (.host 0b0_0111_00000000_00000000_00000000_00000000#37) = .ok (.rdH3) := by decide
theorem test_decode_rdH4 :
    decode (.host 0b0_1000_00000000_00000000_00000000_00000000#37) = .ok (.rdH4) := by decide
theorem test_decode_rdRsvd :
    decode (.host 0b0_1111_00000000_00000000_00000000_00000001#37) = .ok (.rdRsvd 15) := by decide

/-- Reserved control words are rejected by name (R95). -/
theorem test_decode_reserved :
    [0x001#11, 0x081#11, 0x110#11, 0x18F#11, 0x1D0#11, 0x201#11, 0x2D0#11, 0x301#11, 0x381#11, 0x401#11, 0x480#11,
      0x7FF#11].map decodeControl? = List.replicate 12 none := by decide

/-- The boundaries of the four `RND` ranges (`95_test_vectors.md` section 2.5). -/
theorem test_decode_rnd_boundaries :
    [0x293#11, 0x294#11, 0x2A7#11, 0x2A8#11, 0x2BB#11, 0x2BC#11].map decodeControl? =
      [some (.rndCh 19), some (.rndP1 20), some (.rndP1 39), some (.rndMaj 40), some (.rndMaj 59),
        some (.rndP2 60)] := by decide

/-- The encoder writes the words of R105 and of `95_test_vectors.md` section 4. -/
theorem test_encode_words :
    encode .start = .host 0x1000000001#37 ∧ encode (.wrLen 3) = .host 0x1200000003#37 ∧
    encode .rdH4 = .host 0x0800000000#37 ∧ encode (.exp 79) = .control 0x1CF#11 ∧ encode .addh = .control 0x300#11 := by
  decide

/-- The host's numbering: rows of two bytes are control words, rows of five bytes host words (log 16). -/
theorem test_tableWord :
    decodeTableWord 16 0x10F = some (.ldw 15) ∧ decodeTableWord 40 0x1200000003 = some (.wrLen 3) ∧
    decodeTableWord 16 0x110 = none ∧ decodeTableWord 16 0x800 = none ∧ decodeTableWord 40 0x2000000000 = none := by
  decide

/-- The very next step runs the placed word: `LDW 15` after reset goes to (EXP, 16). -/
theorem test_withFetchWord_control :
    got (fun s => (controlWord s, s.agenda)) (step (State.reset.withFetchWord 16 0x10F)) = some (0x190, []) := by
  decide

/-- The same for a host word: `WR.LEN 3` after reset. -/
theorem test_withFetchWord_host :
    got (fun s => (s.len, s.agenda)) (step (State.reset.withFetchWord 40 0x1200000003)) = some (3, []) := by decide

/-! ### Single steps, expected values from `95_test_vectors.md` section 2 -/

/-- P-4: 56 bytes left, case 2. -/
theorem test_pad_longTail :
    got (fun s => (bytesAt [0, 55, 56, 57, 63] s, s.rem, s.off, s.finalFlag))
      (exec .pad (padState 56 56 0 (filled 0 56))) = some ([0xAA, 0xAA, 0x80, 0, 0], 0, 56, false) := by decide

/-- P-11: the last block of 119 bytes, its trailer `00 00 03 B8`. -/
theorem test_pad_last :
    got (fun s => (bytesAt [0, 54, 55, 56, 59, 60, 61, 62, 63] s, s.off, s.finalFlag))
      (exec .pad (padState 119 55 64 (filled 64 55))) =
        some ([0xAA, 0xAA, 0x80, 0, 0, 0, 0, 0x03, 0xB8], 119, true) := by decide

/-- L-7: `01 02 03 04` is `0x01020304`, not `0x04030201`. -/
theorem test_ldw_bigEndian :
    got (fun s => (wordAt s.w 3, controlWord s)) (exec (.ldw 3) (blkState 12 0x01 0x02 0x03 0x04)) =
      some (0x01020304, 0x104) := by decide

/-- L-5: `LDW 15` goes on to (EXP, 16). -/
theorem test_ldw_last :
    got (fun s => (wordAt s.w 15, controlWord s)) (exec (.ldw 15) (blkState 60 0xFF 0xFF 0xFF 0xF8)) =
      some (0xFFFFFFF8, 0x190) := by decide

/-- E-1: bit 31 comes round to bit 0. -/
theorem test_exp_rotates :
    got (fun s => (wordAt s.w 16, controlWord s)) (exec (.exp 16) (expState 16 0x80000000 0 0 0)) =
      some (1, 0x191) := by decide

/-- E-3, at the last index: the next control word is (SEED, 0). -/
theorem test_exp_last :
    got (fun s => (wordAt s.w 79, controlWord s))
      (exec (.exp 79) (expState 79 0x12345678 0x9ABCDEF0 0x0F0F0F0F 0xF0F0F0F0)) = some (0xEEEEEEEE, 0x200) := by decide

/-- SD-2. -/
theorem test_seed :
    got (fun s => (working s, controlWord s))
      (exec .seed { State.reset with h := #v[0x92B404E5, 0x56588CED, 0x6C1ACD4E, 0xBF053F68, 0x09F73A93] }) =
        some ([0x92B404E5, 0x56588CED, 0x6C1ACD4E, 0xBF053F68, 0x09F73A93], 0x280) := by decide

/-- R-3. -/
theorem test_rndCh :
    got working (exec (.rndCh 0) (setZ 0)) = some [0xF53F58C9, 0x80000001, 0xC0000000, 0x0F0F0F0F, 0x33333333] := by decide

/-- R-2: the carries out of bit 31 are discarded. -/
theorem test_rndCh_carries :
    got working (exec (.rndCh 0) (setY 0)) = some [0x5A827995, 0xFFFFFFFF, 0xFFFFFFFF, 0xFFFFFFFF, 0xFFFFFFFF] := by decide

/-- R-6. -/
theorem test_rndP1 :
    got working (exec (.rndP1 20) (setZ 20)) = some [0x129FD3DD, 0x80000001, 0xC0000000, 0x0F0F0F0F, 0x33333333] := by decide

/-- R-5: the carries out of bit 31 are discarded. -/
theorem test_rndP1_carries :
    got working (exec (.rndP1 20) (setY 20)) = some [0x6ED9EB9D, 0xFFFFFFFF, 0xFFFFFFFF, 0xFFFFFFFF, 0xFFFFFFFF] := by decide

/-- R-9. -/
theorem test_rndMaj :
    got working (exec (.rndMaj 40) (setZ 40)) = some [0xF9A86BDC, 0x80000001, 0xC0000000, 0x0F0F0F0F, 0x33333333] := by decide

/-- R-8: the carries out of bit 31 are discarded. -/
theorem test_rndMaj_carries :
    got working (exec (.rndMaj 40) (setY 40)) = some [0x8F1BBCD8, 0xFFFFFFFF, 0xFFFFFFFF, 0xFFFFFFFF, 0xFFFFFFFF] := by decide

/-- R-12. -/
theorem test_rndP2 :
    got working (exec (.rndP2 60) (setZ 60)) = some [0x6E28AA12, 0x80000001, 0xC0000000, 0x0F0F0F0F, 0x33333333] := by decide

/-- R-11: the carries out of bit 31 are discarded. -/
theorem test_rndP2_carries :
    got working (exec (.rndP2 60) (setY 60)) = some [0xCA62C1D2, 0xFFFFFFFF, 0xFFFFFFFF, 0xFFFFFFFF, 0xFFFFFFFF] := by decide

/-- A-1: the final block of "abc". -/
theorem test_addh_final :
    got (fun s => (s.h.toList, s.blkcnt, controlWord s))
      (exec .addh { State.reset with
        h := ivWords, finalFlag := true
        a := 0x42541B35, b := 0x5738D5E1, c := 0x21834873, d := 0x681E6DF6, e := 0xD8FDF6AD }) =
      some ([0xA9993E36, 0x4706816A, 0xBA3E2571, 0x7850C26C, 0x9CD0D89D], 1, 0x380) := by decide

/-- A-2: wrap-around, and more data to come. -/
theorem test_addh_wraps :
    got (fun s => (s.h.toList, s.blkcnt, controlWord s))
      (exec .addh { State.reset with
        h := #v[0xFFFFFFFF, 0x00000000, 0x80000000, 0x7FFFFFFF, 0x00000001], blkcnt := 4
        a := 0x00000002, b := 0x00000000, c := 0x80000000, d := 0x00000001, e := 0xFFFFFFFF }) =
      some ([0x00000001, 0x00000000, 0x00000000, 0x80000000, 0x00000000], 5, 0x080) := by decide

/-- The halt states change nothing (R180 to R182). -/
theorem test_halt :
    got statusWord (exec .hltIdle (inPhase phaseIdle 0)) = some 0 ∧
    got statusWord (exec .hltDone (inPhase phaseDone 0)) = some 2 ∧
    got statusWord (exec .hltFail (inPhase phaseFail 0)) = some 4 := by decide

/-- H-2: the greatest admitted length. -/
theorem test_start_greatest :
    got (fun s => (s.h[0], s.rem, controlWord s, statusWord s)) (exec .start (inPhase phaseIdle 0x1FFFFFFF)) =
      some (0x67452301, 0x1FFFFFFF, 0x080, 1) := by decide

/-- H-3: one more is LengthExceeded; `H` is not written. -/
theorem test_start_exceeded :
    got (fun s => (s.h[0], controlWord s, statusWord s, s.len))
      (exec .start { afterAbc with len := 0x20000000 }) = some (0xA9993E36, 0x400, 4, 0x20000000) := by decide

/-- H-9. -/
theorem test_cnop : got (fun s => s) (exec .cnop afterAbc) = some afterAbc := by decide

/-- H-6: dropped while busy. -/
theorem test_wrLen_busy : got State.len (exec (.wrLen 5) (inPhase phasePad 64)) = some 64 := by decide

/-- H-7: stored in DONE, and the digest stays readable. -/
theorem test_wrLen_done :
    got (fun s => (s.len, s.h[0], s.blkcnt, statusWord s)) (exec (.wrLen 0) afterAbc) =
      some (0, 0xA9993E36, 1, 2) := by decide

/-- H-14. -/
theorem test_writes_without_effect :
    [.wrStatus 7, .wrBlkcnt 7, .wrH0 7, .wrH1 7, .wrH2 7, .wrH3 7, .wrH4 7, .wrRsvd 9 7].map
      (fun i => got (fun s => s == afterAbc) (exec i afterAbc)) = List.replicate 8 (some true) := by decide

/-- H-12, and the other words of the digest. -/
theorem test_reads_of_digest :
    [.rdH0, .rdH1, .rdH2, .rdH3, .rdH4].map (fun i => got State.replies (exec i afterAbc)) =
      [some [0xA9993E36], some [0x4706816A], some [0xBA3E2571], some [0x7850C26C], some [0x9CD0D89D]] := by decide

/-- H-10: a value no one knows, and one draw used. -/
theorem test_rdH0_failed : got State.draws (exec .rdH0 (inPhase phaseFail 0)) = some 1 := by decide

/-- H-11, H-13, H-15. -/
theorem test_plain_reads :
    got State.replies (exec .rdLen (inPhase phaseFail 0x20000000)) = some [0x20000000] ∧
    got State.replies (exec .rdStatus (inPhase phaseFail 0x20000000)) = some [4] ∧
    got State.replies (exec .rdBlkcnt afterAbc) = some [1] ∧
    got State.replies (exec .rdCtrl afterAbc) = some [0] ∧
    got State.replies (exec (.rdRsvd 15) afterAbc) = some [0] := by decide

/-- R62: a change of the message during a run is refused; the same byte again is no change. -/
theorem test_message_turn :
    refusalOf (step { padState 3 3 0 (filled 0 3) with agenda := [.message 2 0xAB] }) =
      some (.messageChangedDuringRun 2) ∧
    got State.msg (step { padState 3 3 0 (filled 0 3) with agenda := [.message 2 0xAA] }) = some (filled 0 3) ∧
    got State.msg (step { padState 2 2 0 (filled 0 2) with agenda := [.message 2 0xAB] }) =
      some [(0, 0xAA), (1, 0xAA), (2, 0xAB)] := by decide

/-- R231: asserting `rst` in mid-run. -/
theorem test_reset_turn :
    got (fun s => (controlWord s, s.finalFlag, s.len, s.blkcnt, s.rst))
      (step { inPhase phaseRnd 64 with t := 17, blkcnt := 1, agenda := [.reset true] }) =
      some (0, false, 0, 0, true) := by decide

/-! ### Witnesses: each hypothesis of each obligation is met -/

theorem witness_EncodeDecodeRoundTrip : WellFormed (.rndMaj 59) ∧ WellFormed (.wrRsvd 15 0xFFFFFFFF) := by decide

theorem witness_DecodedWordsAreWellFormed :
    decode (.host 0x1F00000000#37) = .ok (.wrRsvd 15 0) ∧ decode (.control 0x1CF#11) = .ok (.exp 79) := by decide

/-- The ends of every range of the table. -/
theorem witness_ControlWordTable :
    (0 : Index).toNat ≤ 15 ∧ (15 : Index).toNat ≤ 15 ∧ 16 ≤ (16 : Index).toNat ∧ (79 : Index).toNat ≤ 79 ∧
    (19 : Index).toNat ≤ 19 ∧ 20 ≤ (20 : Index).toNat ∧ (39 : Index).toNat ≤ 39 ∧ 40 ≤ (40 : Index).toNat ∧
    (59 : Index).toNat ≤ 59 ∧ 60 ≤ (60 : Index).toNat ∧
    [0x100#11, 0x10F#11, 0x190#11, 0x1CF#11, 0x280#11, 0x293#11, 0x294#11, 0x2A7#11, 0x2A8#11, 0x2BB#11, 0x2BC#11,
      0x2CF#11].map decodeControl? =
      [some (.ldw 0), some (.ldw 15), some (.exp 16), some (.exp 79), some (.rndCh 0), some (.rndCh 19),
        some (.rndP1 20), some (.rndP1 39), some (.rndMaj 40), some (.rndMaj 59), some (.rndP2 60),
        some (.rndP2 79)] := by decide

/-- First clause: (LDW, 16), just outside the range. -/
theorem witness_ReservedControlWordsFault :
    let s : State := { State.reset with phase := phaseLdw, t := 16 }
    s.rst = false ∧ nextTurn s = .engine ∧ legalPc s.phase s.t = false ∧
      faultOf (step s) = some (.reservedControlWord 0x110) := by decide

/-- Second clause: (LDW, 15), just inside. -/
theorem witness_ReservedControlWordsFault_kept :
    let s : State := { State.reset with phase := phaseLdw, t := 15 }
    legalPc s.phase s.t = true ∧ ∃ t, step s = .next t := ⟨by decide, _, rfl⟩

theorem witness_HostWordTable : 9 ≤ (9 : BitVec 4).toNat ∧ 9 ≤ (15 : BitVec 4).toNat := by decide

theorem witness_EngineTurnRunsControlWord :
    let s : State := { State.reset with phase := phaseRnd, t := 79 }
    s.rst = false ∧ nextTurn s = .engine ∧ decodeControl (controlWord s) = .ok (.rndP2 79) ∧ WellFormed (.rndP2 79) := by
  decide

theorem witness_HostTurnRunsTransaction :
    let s : State := { State.reset with agenda := [.host startWord] }
    s.rst = false ∧ s.agenda = .host startWord :: [] := by decide

theorem witness_AssertedResetHoldsEngine :
    let s : State := { State.reset with rst := true }
    s.rst = true ∧ s.agenda = [] ∧ { s with agenda := [.engine] }.agenda = [.engine] ∧
      { s with agenda := [.host startWord] }.agenda = [.host startWord] ∧
      { s with agenda := [.reset false] }.agenda = [.reset false] ∧
      { s with agenda := [.reset true] }.agenda = [.reset true] := by decide

theorem witness_ResetWritesResetState :
    { inPhase phaseRnd 64 with agenda := [.reset true, .engine] }.agenda = .reset true :: [.engine] := by decide

/-- By reset. -/
theorem witness_OnlyFinalAddhOrResetEndsRun :
    let s : State := { inPhase phaseRnd 64 with agenda := [.reset true] }
    busy s = true ∧ ∃ t, step s = .next t ∧ busy t = false := ⟨by decide, _, rfl, by decide⟩

/-- By the `ADDH` of a final block. -/
theorem witness_OnlyFinalAddhOrResetEndsRun_addh :
    let s : State := { inPhase phaseAddh 64 with finalFlag := true }
    busy s = true ∧ ∃ t, step s = .next t ∧ busy t = false := ⟨by decide, _, rfl, by decide⟩

/-- The last full block of the message space. -/
theorem witness_PadCopiesFullBlock :
    let s := padState 0x1FFFFFFF 64 0x1FFFFFC0 []
    64 ≤ s.rem.toNat ∧ ∀ i, i < 64 → s.off.toNat + i < 2 ^ 29 :=
  ⟨by decide, fun i hi => show 0x1FFFFFC0 + i < 2 ^ 29 by omega⟩

theorem witness_PadTerminatesLongTail :
    let s := padState 56 56 0 []
    56 ≤ s.rem.toNat ∧ s.rem.toNat < 64 ∧ ∀ i, i < s.rem.toNat → s.off.toNat + i < 2 ^ 29 :=
  ⟨by decide, by decide, fun i hi => show 0 + i < 2 ^ 29 from by
    have : i < 56 := hi
    omega⟩

/-- P-14, the other end of the range. -/
theorem witness_PadTerminatesLongTail_63 :
    let s := padState 0x1FFFFFFF 63 0x1FFFFFC0 []
    56 ≤ s.rem.toNat ∧ s.rem.toNat < 64 ∧ ∀ i, i < s.rem.toNat → s.off.toNat + i < 2 ^ 29 :=
  ⟨by decide, by decide, fun i hi => show 0x1FFFFFC0 + i < 2 ^ 29 from by
    have : i < 63 := hi
    omega⟩

/-- Nothing left to copy (P-15). -/
theorem witness_PadEndsMessage :
    let s := padState 0x1FFFFFFF 0 0x1FFFFFFF []
    s.rem.toNat < 56 ∧ ∀ i, i < s.rem.toNat → s.off.toNat + i < 2 ^ 29 :=
  ⟨by decide, fun i hi => absurd hi (by exact Nat.not_lt_zero i)⟩

/-- 55 bytes left (P-3), the other end of the range. -/
theorem witness_PadEndsMessage_55 :
    let s := padState 55 55 0 []
    s.rem.toNat < 56 ∧ ∀ i, i < s.rem.toNat → s.off.toNat + i < 2 ^ 29 :=
  ⟨by decide, fun i hi => show 0 + i < 2 ^ 29 from by
    have : i < 55 := hi
    omega⟩

/-- A witness of "PAD completes" without evaluating the block. -/
theorem pad_completes {s : State} (h : padReadable s = true) : ∃ t, exec .pad s = .next t :=
  ⟨padded s, execPad_next.mpr ⟨h, rfl⟩⟩

theorem witness_TrailerIsBitLength :
    let s := padState 0x1FFFFFFF 0 0x1FFFFFFF []
    s.len.toNat ≤ 536870911 ∧ s.rem.toNat < 56 ∧ ∃ t, exec .pad s = .next t :=
  ⟨by decide, by decide, pad_completes (by decide)⟩

theorem witness_PadOverwritesWholeBlock : ∃ t, exec .pad (padState 64 64 0 []) = .next t := pad_completes (by decide)

/-- The first offset that does not exist. -/
theorem witness_PadFaultsOutsideMessageSpace :
    let s := padState 0x1FFFFFFF 64 0x1FFFFFC1 []
    63 < s.rem.toNat ∧ 2 ^ 29 ≤ s.off.toNat + 63 ∧ faultOf (exec .pad s) = some .messageOffsetOutOfSpace := by decide

/-- A state in mid-run meets the invariant: 119 bytes, one block done, `PAD` next (P-11). -/
theorem runState_inv : Inv { padState 119 55 64 [] with blkcnt := 1 } where
  legal := by decide
  canonical := by decide
  finalEmpty := by decide
  running := fun _ =>
    { admitted := by decide
      split := by decide
      place := by
        rw [if_pos (by decide)]
        exact ⟨by decide, Or.inl (by decide)⟩ }
  doneFinal := by decide
  stoppedClear := by decide

theorem witness_PadReadsInsideMessage :
    Inv { padState 119 55 64 [] with blkcnt := 1 } ∧ { padState 119 55 64 [] with blkcnt := 1 }.phase = 0x1 :=
  ⟨runState_inv, by decide⟩

theorem witness_LdwLoadsBigEndianWord : (0 : Index).toNat ≤ 15 ∧ (15 : Index).toNat ≤ 15 := by decide

theorem witness_ExpExpandsSchedule :
    16 ≤ (16 : Index).toNat ∧ (16 : Index).toNat ≤ 79 ∧ 16 ≤ (79 : Index).toNat ∧ (79 : Index).toNat ≤ 79 := by decide

theorem witness_RndChUpdatesWorking : (0 : Index).toNat ≤ 19 ∧ (19 : Index).toNat ≤ 19 := by decide

theorem witness_RndP1UpdatesWorking :
    20 ≤ (20 : Index).toNat ∧ (20 : Index).toNat ≤ 39 ∧ 20 ≤ (39 : Index).toNat ∧ (39 : Index).toNat ≤ 39 := by decide

theorem witness_RndMajUpdatesWorking :
    40 ≤ (40 : Index).toNat ∧ (40 : Index).toNat ≤ 59 ∧ 40 ≤ (59 : Index).toNat ∧ (59 : Index).toNat ≤ 59 := by decide

theorem witness_RndP2UpdatesWorking :
    60 ≤ (60 : Index).toNat ∧ (60 : Index).toNat ≤ 79 ∧ 60 ≤ (79 : Index).toNat ∧ (79 : Index).toNat ≤ 79 := by decide

theorem witness_EveryRoundIsCommonUpdate : (0 : Index).toNat ≤ 79 ∧ (79 : Index).toNat ≤ 79 := by decide

theorem witness_RoundFunctionsBitByBit : (0 : Nat) < 32 ∧ 31 < 32 := by decide

theorem witness_RotlIsCircular : (0 : Nat) < 31 ∧ 31 < 32 ∧ rotl 31 1 = 0x80000000 ∧ rotl 1 0x80000000 = 1 := by decide

theorem witness_HaltStatesChangeNothing :
    [phaseIdle, phaseDone, phaseFail].map (fun p => (statusWord (inPhase p 0), (inPhase p 0).rst, (inPhase p 0).t)) =
      [(0, false, 0), (2, false, 0), (4, false, 0)] ∧ (inPhase phaseDone 0).agenda = [] := by decide

theorem witness_IllFormedIndexFaults :
    faultOf (exec (.ldw 16) State.reset) = some (.reservedControlWord 0x110) ∧
    faultOf (exec (.exp 15) State.reset) = some (.reservedControlWord 0x18F) ∧
    faultOf (exec (.exp 80) State.reset) = some (.reservedControlWord 0x1D0) ∧
    faultOf (exec (.rndCh 20) State.reset) = some (.reservedControlWord 0x294) ∧
    faultOf (exec (.rndP1 19) State.reset) = some (.reservedControlWord 0x293) ∧
    faultOf (exec (.rndP1 40) State.reset) = some (.reservedControlWord 0x2A8) ∧
    faultOf (exec (.rndMaj 39) State.reset) = some (.reservedControlWord 0x2A7) ∧
    faultOf (exec (.rndMaj 60) State.reset) = some (.reservedControlWord 0x2BC) ∧
    faultOf (exec (.rndP2 59) State.reset) = some (.reservedControlWord 0x2BB) ∧
    faultOf (exec (.rndP2 80) State.reset) = some (.reservedControlWord 0x2D0) := by decide

/-- Every clause's next state exists, on both sides of each branch. -/
theorem witness_NextControlWordTable :
    [.hltIdle, .hltDone, .hltFail, .ldw 14, .ldw 15, .exp 78, .exp 79, .seed, .rndCh 19, .rndP1 39, .rndMaj 59,
      .rndP2 78, .rndP2 79, .addh, .start].map (fun i => got controlWord (exec i State.reset)) =
      [some 0x000, some 0x000, some 0x000, some 0x10F, some 0x190, some 0x1CF, some 0x200, some 0x280, some 0x294,
        some 0x2A8, some 0x2BC, some 0x2CF, some 0x300, some 0x080, some 0x080] ∧
    got controlWord (exec .pad (padState 0 0 0 [])) = some 0x100 ∧
    got controlWord (exec .addh { State.reset with finalFlag := true }) = some 0x380 ∧
    busy State.reset = false ∧ controlWord (resetTurn true afterAbc) = 0x000 := by decide

theorem witness_StartBeginsRun :
    (0xFFFFFFFF : Word).getLsbD 0 = true ∧ busy (inPhase phaseAddh 3) = true ∧ busy (inPhase phaseFail 3) = false ∧
    0x1FFFFFFF < (inPhase phaseIdle 0x20000000).len.toNat ∧ (inPhase phaseIdle 0x1FFFFFFF).len.toNat ≤ 0x1FFFFFFF := by
  decide

theorem witness_OnlyStartRaisesLengthExceeded :
    let s := inPhase phaseIdle 0x20000000
    (∃ t, exec .start s = .next t ∧ err t = true) ∧ err s = false ∧ busy s = false ∧ 0x20000000 ≤ s.len.toNat :=
  ⟨⟨_, rfl, by decide⟩, by decide, by decide, by decide⟩

theorem witness_LengthExceededEntry :
    busy (inPhase phaseDone 0x20000000) = false ∧ 0x20000000 ≤ (inPhase phaseDone 0x20000000).len.toNat ∧
    busy (inPhase phaseIdle 0xFFFFFFFF) = false ∧ 0x20000000 ≤ (inPhase phaseIdle 0xFFFFFFFF).len.toNat := by decide

/-- By an accepted `START`. -/
theorem witness_ErrClearedByStartOrReset :
    let s : State := { inPhase phaseFail 3 with agenda := [.host startWord] }
    err s = true ∧ ∃ t, step s = .next t ∧ err t = false := ⟨by decide, _, rfl, by decide⟩

/-- By reset. -/
theorem witness_ErrClearedByStartOrReset_reset :
    let s : State := { inPhase phaseFail 3 with agenda := [.reset true] }
    err s = true ∧ ∃ t, step s = .next t ∧ err t = false := ⟨by decide, _, rfl, by decide⟩

theorem witness_WrLenStoresUnlessBusy : busy (inPhase phaseDone 3) = false ∧ busy (inPhase phasePad 3) = true := by decide

theorem witness_AccessesWithoutEffect :
    (0xFFFFFFFE : Word).getLsbD 0 = false ∧ (1 : BitVec 4) ≠ 0 ∧ (1 : BitVec 4) ≠ 2 ∧ (15 : BitVec 4) ≠ 0 ∧
    (15 : BitVec 4) ≠ 2 ∧ 9 ≤ (9 : BitVec 4).toNat ∧ 9 ≤ (15 : BitVec 4).toNat := by decide

theorem witness_HashReadsNeedDone : done afterAbc = true ∧ done (inPhase phaseFail 3) = false := by decide

theorem witness_StatusHasFourValues :
    [0x0, 0x1, 0x6, 0x7, 0x8].map (fun p => statusWord (inPhase p 0)) = [0, 1, 1, 2, 4] ∧ 1 ≤ (1 : PhaseCode).toNat ∧
    (6 : PhaseCode).toNat ≤ 6 ∧ 3 ≤ 31 := by decide

theorem witness_NoInstructionWritesMessage : ∃ t, exec .pad (padState 3 3 0 (filled 0 3)) = .next t :=
  pad_completes (by decide)

/-- Each register of the matrix is changed by one of its writers. -/
theorem witness_AccessMatrix :
    let s : State := { setZ 0 with blk := State.reset.blk.setIfInBounds 0 1, len := 3, blkcnt := 1 }
    got (fun t => t.h != s.h && t.rem != s.rem && t.blkcnt != s.blkcnt && t.phase != s.phase) (exec .start s) = some true ∧
    got (fun t => t.a != s.a) (exec .seed s) = some true ∧ got (fun t => t.a != s.a) (exec (.rndCh 0) s) = some true ∧
    got (fun t => wordAt t.w 0 != wordAt s.w 0) (exec (.ldw 0) s) = some true ∧
    got (fun t => wordAt t.w 16 != wordAt s.w 16) (exec (.exp 16) s) = some true ∧
    got (fun t => t.len != s.len) (exec (.wrLen 4) s) = some true ∧
    got (fun t => t.blkcnt != s.blkcnt) (exec .addh s) = some true ∧
    got (fun t => t.replies != s.replies) (exec .rdLen s) = some true := by decide

/-- The registers `PAD` changes. -/
theorem witness_AccessMatrix_pad :
    let s := padState 3 3 0 (filled 0 3)
    got (fun t => t.rem != s.rem && t.off != s.off && t.finalFlag != s.finalFlag && byteAt t.blk 3 != byteAt s.blk 3)
      (exec .pad s) = some true := by decide

theorem witness_HostCannotDisturbRun : busy (inPhase phaseAddh 3) = true ∧ decodeHost startWord = .start := by decide

theorem witness_RemNeverIncreases :
    Instr.pad ≠ .start ∧ got State.rem (exec .pad (padState 119 119 0 (filled 0 64))) = some 55 := by decide

theorem witness_MessageConstantDuringRun :
    let s : State := { padState 3 3 0 (filled 0 3) with agenda := [.message 3 0xBB] }
    busy s = true ∧ (∃ t, step s = .next t) ∧ 2 < s.len.toNat := ⟨by decide, ⟨_, rfl⟩, by decide⟩

/-- The refused attempt, at the last byte of the message. -/
theorem witness_MessageConstantDuringRun_refused :
    let s : State := { padState 3 3 0 (filled 0 3) with agenda := [.message 2 0xBB] }
    busy s = true ∧ s.agenda = .message 2 0xBB :: [] ∧ (2 : BitVec 29).toNat < s.len.toNat ∧
      s.msg.read (2 : BitVec 29).toNat ≠ some 0xBB := by decide

/-- The refused attempt, on a byte nobody has placed. -/
theorem witness_MessageConstantDuringRun_unplaced :
    let s : State := { padState 3 3 0 [] with agenda := [.message 0 0xBB] }
    busy s = true ∧ s.agenda = .message 0 0xBB :: [] ∧ (0 : BitVec 29).toNat < s.len.toNat ∧
      s.msg.read (0 : BitVec 29).toNat ≠ some 0xBB ∧
      refusalOf (step s) = some (.messageChangedDuringRun 0) := by decide

theorem witness_MessageWriteThenRead :
    Memory.wf [(0, 1), (5, 2)] = true ∧ 2 ^ 29 - 1 < 2 ^ 29 ∧
      Memory.write [(0, 1), (5, 2)] 3 9 = [(0, 1), (3, 9), (5, 2)] ∧
      Memory.write [(0, 1), (5, 2)] 5 9 = [(0, 1), (5, 9)] := by decide

/-- A message turn that goes through, for each of its three reasons: not busy, the first offset past the message, the
byte already placed. -/
theorem witness_MessageWriteThenRead_turn :
    let s : State := { afterAbc with agenda := [.message 2 0xBB] }
    let s' : State := { padState 3 3 0 (filled 0 3) with agenda := [.message 3 0xBB] }
    let s'' : State := { padState 3 3 0 (filled 0 3) with agenda := [.message 2 0xAA] }
    s.agenda = .message 2 0xBB :: [] ∧ busy s = false ∧ s'.agenda = .message 3 0xBB :: [] ∧ busy s' = true ∧
      s'.len.toNat ≤ (3 : BitVec 29).toNat ∧ s''.agenda = .message 2 0xAA :: [] ∧ busy s'' = true ∧
      s''.msg.read (2 : BitVec 29).toNat = some 0xAA := by decide

theorem witness_CanonicalMessageIsUnique :
    Memory.wf [(0, 1), (5, 2)] = true ∧
      ∀ off : Nat, Memory.read [(0, 1), (5, 2)] off = Memory.read (Memory.write [(5, 2)] 0 1) off :=
  ⟨by decide, fun _ => rfl⟩

/-- `DONE` kept. -/
theorem witness_DigestStableWhileDone :
    let s : State := { afterAbc with agenda := [.message 0 1] }
    done s = true ∧ ∃ t, step s = .next t ∧ done t = true := ⟨by decide, _, rfl, by decide⟩

/-- `DONE` left by a `START`. -/
theorem witness_DigestStableWhileDone_start :
    let s : State := { afterAbc with agenda := [.host startWord] }
    done s = true ∧ ∃ t, step s = .next t ∧ done t = false := ⟨by decide, _, rfl, by decide⟩

theorem witness_StartForgetsEarlierRun :
    busy afterAbc = false ∧ busy (inPhase phaseIdle 3) = false ∧ afterAbc.len = (inPhase phaseIdle 3).len ∧
    afterAbc.len.toNat ≤ 0x1FFFFFFF ∧ (∃ t, exec .start afterAbc = .next t) ∧
    ∃ t, exec .start (inPhase phaseIdle 3) = .next t :=
  ⟨by decide, by decide, by decide, by decide, ⟨_, rfl⟩, ⟨_, rfl⟩⟩

theorem witness_StepKeepsInvariant :
    Inv { padState 119 55 64 [] with blkcnt := 1 } ∧ ∃ t, step { padState 119 55 64 [] with blkcnt := 1 } = .next t :=
  ⟨runState_inv, (pad_completes (by decide) : ∃ t, exec .pad _ = .next t)⟩

/-- `PAD` next with a full block left, the start of a run of 120 bytes. -/
theorem witness_InvariantGivesSpecInvariants :
    Inv (padState 120 120 0 []) ∧ 64 ≤ (padState 120 120 0 []).rem.toNat ∧ busy (padState 120 120 0 []) = true :=
  ⟨{  legal := by decide
      canonical := by decide
      finalEmpty := by decide
      running := fun _ =>
        { admitted := by decide
          split := by decide
          place := by
            rw [if_pos (by decide)]
            exact ⟨by decide, Or.inl (by decide)⟩ }
      doneFinal := by decide
      stoppedClear := by decide }, by decide, by decide⟩

/-- The invariant with `FINAL = 1`. -/
theorem witness_InvariantGivesSpecInvariants_final :
    Inv { inPhase phaseAddh 3 with finalFlag := true, off := 3 } :=
  { legal := by decide
    canonical := by decide
    finalEmpty := by decide
    running := fun _ =>
      { admitted := by decide
        split := by decide
        place := by
          rw [if_neg (by decide)]
          unfold blockPosition
          rw [if_pos (by decide)]
          exact ⟨by decide, by decide⟩ }
    doneFinal := by decide
    stoppedClear := by decide }

theorem witness_BlockPassCompresses :
    let s := inPhase phaseLdw 3
    s.phase = 0x2 ∧ s.t = 0 ∧ s.rst = false ∧ s.agenda = [] := by decide

theorem witness_RunComputesSha1 :
    let s : State := { inPhase phaseIdle 3 with agenda := [.host startWord] }
    let s' : State := { inPhase phaseDone 0x20000000 with agenda := [.host startWord] }
    busy s = false ∧ s.rst = false ∧ s.agenda = [.host startWord] ∧ s.len.toNat ≤ 536870911 ∧
    busy s' = false ∧ s'.rst = false ∧ s'.agenda = [.host startWord] ∧ 536870911 < s'.len.toNat := by decide

theorem witness_RunLengthIsExact :
    let s : State := { inPhase phaseIdle 0x1FFFFFFF with agenda := [.host startWord] }
    busy s = false ∧ s.rst = false ∧ s.agenda = [.host startWord] ∧ s.len.toNat ≤ 536870911 ∧
      blocksNeeded s.len.toNat = 8388609 ∧ 0 < 163 * blocksNeeded s.len.toNat := by decide

/-- A `START` dropped and a read answered between two steps of a run. -/
theorem witness_InterleavingDoesNotMatter :
    let s := inPhase phaseSeed 3
    let l : List Turn := [.host startWord, .engine, .host 0x0100000000#37]
    s.rst = false ∧ (∀ x ∈ l, engineOrHost x = true) ∧
      (∀ k, k ≤ engineTurns l → ∃ v, Sys2Proof.core.run k (engineView s) = .next v ∧ busy v = true) ∧
      ∃ u, Sys2Proof.core.run (engineTurns l + 1) (engineView s) = .next u := by
  refine ⟨by decide, by decide, fun k hk => ?_, _, rfl⟩
  have h1 : k ≤ 1 := hk
  match k, h1 with
  | 0, _ => exact ⟨_, rfl, by decide⟩
  | 1, _ => exact ⟨_, rfl, by decide⟩

theorem witness_ReuseGivesSameDigest :
    let s : State := { afterAbc with agenda := [.host startWord] }
    let s' : State := { inPhase phaseFail 3 with agenda := [.host startWord] }
    busy s = false ∧ busy s' = false ∧ s.rst = false ∧ s'.rst = false ∧ s.agenda = [.host startWord] ∧
    s'.agenda = [.host startWord] ∧ s.len = s'.len ∧ s.len.toNat ≤ 536870911 ∧
    ∀ off, off < s.len.toNat → messageByte s.msg off = messageByte s'.msg off :=
  ⟨by decide, by decide, by decide, by decide, by decide, by decide, by decide, by decide, fun _ _ => rfl⟩

end Sys2Proof.Tests
end

section
/-! The state after reset (`10_state.md` R39): the registers the spec gives a value, and the flags `PHASE = IDLE` gives. -/

namespace Sys2Proof.Machine

/-- In `IDLE` no flag is up (R33): the machine is neither running, nor done, nor in error. -/
theorem flags_clear_of_phase_idle {s : State} (h : s.phase = phaseIdle) :
    busy s = false ∧ done s = false ∧ err s = false := by
  unfold busy done err
  rw [h]
  decide

@[simp] theorem reset_phase : State.reset.phase = phaseIdle := rfl
@[simp] theorem reset_t : State.reset.t = 0 := rfl
@[simp] theorem reset_finalFlag : State.reset.finalFlag = false := rfl
@[simp] theorem reset_len : State.reset.len = 0 := rfl
@[simp] theorem reset_blkcnt : State.reset.blkcnt = 0 := rfl

/-- Settles O12: the five registers hold the values R39 gives, and the flags are those of `IDLE`. -/
theorem resetStateValues : Obligations.ResetStateValues :=
  ⟨reset_phase, reset_t, reset_finalFlag, reset_len, reset_blkcnt, flags_clear_of_phase_idle reset_phase⟩

end Sys2Proof.Machine
end

section
/-! What an instruction can do to the state, said once for all 33 mnemonics, and its first use: the message memory is the
owner's alone (`20_memory.md` R73). -/

namespace Sys2Proof.Machine

open Sys2Proof

theorem indexIn_iff {lo hi : Nat} {k : Index} : indexIn lo hi k = true ↔ lo ≤ k.toNat ∧ k.toNat ≤ hi := by
  simp [indexIn]

/-- `Effect s i t`: carrying out `i` in `s` may leave `t`. The 33 mnemonics fall into a dozen shapes. -/
inductive Effect (s : State) : Instr → State → Prop where
  /-- A halt, `CNOP`, a write of a register the host cannot write, or a `START` or `WR.LEN` dropped while busy. -/
  | unchanged {i : Instr} (dropped : i = .start → busy s = true) : Effect s i s
  | pad (readable : padReadable s = true) : Effect s .pad (padded s)
  | ldw {k : Index} (le : k.toNat ≤ 15) :
      Effect s (.ldw k) (advance phaseLdw k 15 phaseExp 16 (setWord k.toNat (blockWord s.blk k.toNat) s))
  | exp {k : Index} (ge : 16 ≤ k.toNat) (le : k.toNat ≤ 79) :
      Effect s (.exp k) (advance phaseExp k 79 phaseSeed 0 (setWord k.toNat (expandWord s.w k.toNat) s))
  | seed : Effect s .seed (setPc phaseRnd 0 (setWorking s.h[0] s.h[1] s.h[2] s.h[3] s.h[4] s))
  /-- The four variants differ in the round function's value `f` and the constant `c` only (R151). -/
  | round {i : Instr} {k : Index} (f c : Word)
      (variant : i = .rndCh k ∨ i = .rndP1 k ∨ i = .rndMaj k ∨ i = .rndP2 k) (le : k.toNat ≤ 79) :
      Effect s i (roundUpdate f c k s)
  | addh : Effect s .addh
      (setPc (if s.finalFlag then phaseDone else phasePad) 0 (setHash (addedHash s) (countBlock s)))
  | startRefused (idle : busy s = false) (exceeded : lengthExceeded s.len = true) :
      Effect s .start (raiseLengthExceeded (acceptStart s))
  | startRun (idle : busy s = false) (admitted : lengthExceeded s.len = false) :
      Effect s .start (beginRun (acceptStart s))
  | wrLen (v : Word) (idle : busy s = false) : Effect s (.wrLen v) (setLen v s)
  | reply {i : Instr} (v : Word) (host : i.isEngine = false) (ne : i ≠ .start) : Effect s i (reply v s)
  | replyFree {i : Instr} (host : i.isEngine = false) (ne : i ≠ .start) : Effect s i (replyFree s)

/-- `RD.Hi` answers with the digest word or with a draw (R177). -/
theorem Effect.replyHash {s : State} {i : Instr} (j : Fin 5) (host : i.isEngine = false) (ne : i ≠ .start) :
    Effect s i (replyHash j s) := by
  unfold Machine.replyHash
  split
  · exact .reply _ host ne
  · exact .replyFree host ne

/-- The inversion of `exec`: what an instruction that answers a next state has done. -/
theorem exec_effect {i : Instr} {s t : State} (h : exec i s = .next t) : Effect s i t := by
  cases i with
  | hltIdle | hltDone | hltFail | cnop | wrStatus _ | wrBlkcnt _ | wrH0 _ | wrH1 _ | wrH2 _ | wrH3 _ | wrH4 _
  | wrRsvd _ _ => cases h; exact .unchanged nofun
  | pad =>
    obtain ⟨hr, rfl⟩ := execPad_next.mp h
    exact .pad hr
  | ldw k =>
    obtain ⟨hk, rfl⟩ := execLdw_next.mp h
    exact .ldw (indexIn_iff.mp hk).2
  | exp k =>
    obtain ⟨hk, rfl⟩ := execExp_next.mp h
    obtain ⟨hge, hle⟩ := indexIn_iff.mp hk
    exact .exp hge hle
  | seed => cases h; exact .seed
  | rndCh k =>
    obtain ⟨hk, rfl⟩ := execRndCh_next.mp h
    exact .round _ _ (.inl rfl) ((indexIn_iff.mp hk).2.trans (by decide))
  | rndP1 k =>
    obtain ⟨hk, rfl⟩ := execRndP1_next.mp h
    exact .round _ _ (.inr (.inl rfl)) ((indexIn_iff.mp hk).2.trans (by decide))
  | rndMaj k =>
    obtain ⟨hk, rfl⟩ := execRndMaj_next.mp h
    exact .round _ _ (.inr (.inr (.inl rfl))) ((indexIn_iff.mp hk).2.trans (by decide))
  | rndP2 k =>
    obtain ⟨hk, rfl⟩ := execRndP2_next.mp h
    exact .round _ _ (.inr (.inr (.inr rfl))) (indexIn_iff.mp hk).2
  | addh => cases h; exact .addh
  | start =>
    change execStart s = .next t at h
    obtain ⟨hb, hs⟩ | ⟨hb, hl, hs⟩ | ⟨hb, hl, hs⟩ := execStart_cases s <;> cases hs.symm.trans h
    · exact .unchanged fun _ => hb
    · exact .startRefused hb hl
    · exact .startRun hb hl
  | wrLen v =>
    change execWrLen v s = .next t at h
    obtain ⟨hb, hs⟩ | ⟨hb, hs⟩ := execWrLen_cases v s <;> cases hs.symm.trans h
    · exact .unchanged nofun
    · exact .wrLen v hb
  | rdCtrl | rdStatus | rdLen | rdBlkcnt | rdRsvd _ => cases h; exact .reply _ rfl nofun
  | rdH0 | rdH1 | rdH2 | rdH3 | rdH4 => cases h; exact .replyHash _ rfl nofun

@[simp] theorem roundUpdate_msg (f c : Word) (k : Index) (s : State) : (roundUpdate f c k s).msg = s.msg := by
  simp [roundUpdate_eq]

/-- Every operation an instruction is made of leaves the message memory alone; only a message turn writes it. -/
theorem Effect.msg_eq {i : Instr} {s t : State} (h : Effect s i t) : t.msg = s.msg := by
  cases h with
  | unchanged => rfl
  | pad => exact padded_msg s
  | ldw | exp => rw [advance_msg, setWord_msg]
  | seed => rw [setPc_msg, setWorking_msg]
  | round => exact roundUpdate_msg ..
  | addh => rw [setPc_msg, setHash_msg, countBlock_msg]
  | startRefused => rw [raiseLengthExceeded_msg, acceptStart_msg]
  | startRun => rw [beginRun_msg, acceptStart_msg]
  | wrLen v => exact setLen_msg v s
  | reply v => exact reply_msg v s
  | replyFree => exact replyFree_msg s

/-- Settles O44: the message memory is kept by every effect an instruction can have, so every offset reads as before. -/
theorem noInstructionWritesMessage : Obligations.NoInstructionWritesMessage := by
  intro i s t h
  have hmsg : t.msg = s.msg := (exec_effect h).msg_eq
  exact ⟨hmsg, fun off => by rw [hmsg]⟩

end Sys2Proof.Machine
end

section
/-! Which control words the decoder knows (`30_encoding.md` R93, R95): its answer phase by phase, and that it knows exactly
the legal ones. -/

namespace Sys2Proof

open Sys2Proof Sys2Proof.Machine Sys2Proof.Safety

/-! ### The decoder, one phase at a time -/

section Rows
variable (t : Index)

theorem decodeControl?_idle :
    decodeControl? (mkControlWord phaseIdle t) = if t = 0 then some .hltIdle else none := by
  simp [decodeControl?]

theorem decodeControl?_pad :
    decodeControl? (mkControlWord phasePad t) = if t = 0 then some .pad else none := by
  simp [decodeControl?]

theorem decodeControl?_ldw :
    decodeControl? (mkControlWord phaseLdw t) = if indexIn 0 15 t then some (.ldw t) else none := by
  simp [decodeControl?]

theorem decodeControl?_exp :
    decodeControl? (mkControlWord phaseExp t) = if indexIn 16 79 t then some (.exp t) else none := by
  simp [decodeControl?]

theorem decodeControl?_seed :
    decodeControl? (mkControlWord phaseSeed t) = if t = 0 then some .seed else none := by
  simp [decodeControl?]

theorem decodeControl?_rnd : decodeControl? (mkControlWord phaseRnd t) = decodeRound t := by
  simp [decodeControl?]

theorem decodeControl?_addh :
    decodeControl? (mkControlWord phaseAddh t) = if t = 0 then some .addh else none := by
  simp [decodeControl?]

theorem decodeControl?_done :
    decodeControl? (mkControlWord phaseDone t) = if t = 0 then some .hltDone else none := by
  simp [decodeControl?]

theorem decodeControl?_fail :
    decodeControl? (mkControlWord phaseFail t) = if t = 0 then some .hltFail else none := by
  simp [decodeControl?]

/-- The phase codes above 8 name no phase (R92). -/
theorem decodeControl?_reservedPhase {p : PhaseCode} (hp : 9 ≤ p.toNat) :
    decodeControl? (mkControlWord p t) = none := by
  have hne (q : PhaseCode) (hq : q.toNat < 9) : p ≠ q := fun h => by subst h; omega
  simp [decodeControl?, hne]

end Rows

/-- R94 in ranges: the four variants take twenty indices each, and no index above 79 has one. -/
theorem decodeRound_eq (t : Index) : decodeRound t =
    if t.toNat ≤ 19 then some (.rndCh t)
    else if t.toNat ≤ 39 then some (.rndP1 t)
    else if t.toNat ≤ 59 then some (.rndMaj t)
    else if t.toNat ≤ 79 then some (.rndP2 t)
    else none := by
  unfold decodeRound
  split <;> grind

theorem decodeRound_isSome {t : Index} : (decodeRound t).isSome = true ↔ t.toNat ≤ 79 := by
  rw [decodeRound_eq]
  grind

/-- The nine phases of R92, and the reserved codes above them. -/
theorem phase_cases (p : PhaseCode) :
    p = phaseIdle ∨ p = phasePad ∨ p = phaseLdw ∨ p = phaseExp ∨ p = phaseSeed ∨ p = phaseRnd ∨ p = phaseAddh ∨
      p = phaseDone ∨ p = phaseFail ∨ 9 ≤ p.toNat := by
  revert p
  decide

/-! ### The words with a row, and the words with none -/

/-- R91: a control word is `128 * PHASE + T`. -/
theorem mkControlWord_eq_ofNat (p : PhaseCode) (t : Index) :
    mkControlWord p t = BitVec.ofNat 11 (128 * p.toNat + t.toNat) := by
  apply BitVec.eq_of_toNat_eq
  have hp := p.isLt
  have ht := t.isLt
  rw [mkControlWord, BitVec.toNat_append, BitVec.toNat_ofNat, Nat.mod_eq_of_lt (by omega),
    Nat.shiftLeft_eq, Nat.mul_comm, ← Nat.two_pow_add_eq_or_of_lt ht]

/-- A row of R93: the word of a phase and an index that have a row decodes to it. -/
theorem decodeControl_row {p : PhaseCode} {t : Index} {i : Instr} (h : decodeControl? (mkControlWord p t) = some i) :
    decodeControl (BitVec.ofNat 11 (128 * p.toNat + t.toNat)) = .ok i := by
  rw [← mkControlWord_eq_ofNat, decodeControl, h]

/-! The legal indices of R93, where a phase has more than index 0. -/

theorem legalPc_ldw {t : Index} : legalPc phaseLdw t = true ↔ t.toNat ≤ 15 := decide_eq_true_iff

theorem legalPc_exp {t : Index} : legalPc phaseExp t = true ↔ 16 ≤ t.toNat ∧ t.toNat ≤ 79 := indexIn_iff

theorem legalPc_rnd {t : Index} : legalPc phaseRnd t = true ↔ t.toNat ≤ 79 := decide_eq_true_iff

theorem legalPc_of_reservedPhase {p : PhaseCode} (hp : 9 ≤ p.toNat) (t : Index) : legalPc p t = false := by
  unfold legalPc
  split
  case h_10 => rfl
  all_goals omega

/-- The phases with one word only, `T = 0`. -/
theorem isSome_onlyIndexZero (t : Index) (i : Instr) :
    (if t = 0 then some i else none).isSome = decide (t.toNat = 0) := by
  rw [Bool.eq_iff_iff, Option.isSome_ite, decide_eq_true_iff]
  exact BitVec.toNat_inj.symm

/-- The decoder knows exactly the legal control words. -/
theorem decodeControl?_isSome (p : PhaseCode) (t : Index) :
    (decodeControl? (mkControlWord p t)).isSome = legalPc p t := by
  obtain rfl | rfl | rfl | rfl | rfl | rfl | rfl | rfl | rfl | hp := phase_cases p
  · rw [decodeControl?_idle]; exact isSome_onlyIndexZero t _
  · rw [decodeControl?_pad]; exact isSome_onlyIndexZero t _
  · rw [decodeControl?_ldw, Bool.eq_iff_iff, Option.isSome_ite, indexIn_iff, legalPc_ldw]
    omega
  · rw [decodeControl?_exp, Bool.eq_iff_iff, Option.isSome_ite, indexIn_iff, legalPc_exp]
  · rw [decodeControl?_seed]; exact isSome_onlyIndexZero t _
  · rw [decodeControl?_rnd, Bool.eq_iff_iff, decodeRound_isSome, legalPc_rnd]
  · rw [decodeControl?_addh]; exact isSome_onlyIndexZero t _
  · rw [decodeControl?_done]; exact isSome_onlyIndexZero t _
  · rw [decodeControl?_fail]; exact isSome_onlyIndexZero t _
  · rw [decodeControl?_reservedPhase t hp, legalPc_of_reservedPhase hp]; rfl

/-- R95: the decoder refuses a reserved control word by name. -/
theorem decodeControl_reserved {p : PhaseCode} {t : Index} (h : legalPc p t = false) :
    decodeControl (mkControlWord p t) = .error (.reservedControlWord (mkControlWord p t)) := by
  rw [← decodeControl?_isSome, Option.isSome_eq_false_iff, Option.isNone_iff_eq_none] at h
  rw [decodeControl, h]

theorem decodeControl_rnd_row {t : Index} {i : Instr} (h : decodeRound t = some i) :
    decodeControl (BitVec.ofNat 11 (0x280 + t.toNat)) = .ok i :=
  decodeControl_row (p := phaseRnd) (by rw [decodeControl?_rnd, h])

/-- Settles O3: each row's words are `128 * PHASE + T`, and the phase's equation says what they decode to. -/
theorem controlWordTable : Obligations.ControlWordTable := by
  refine ⟨decodeControl_row (decodeControl?_idle 0), decodeControl_row (decodeControl?_pad 0),
    decodeControl_row (decodeControl?_seed 0), decodeControl_row (decodeControl?_addh 0),
    decodeControl_row (decodeControl?_done 0), decodeControl_row (decodeControl?_fail 0), ?_, ?_, ?_, ?_, ?_, ?_⟩
  · intro t hle
    have hrow : indexIn 0 15 t = true := indexIn_iff.mpr ⟨Nat.zero_le _, hle⟩
    exact decodeControl_row (p := phaseLdw) (by rw [decodeControl?_ldw, if_pos hrow])
  · intro t hge hle
    have hrow : indexIn 16 79 t = true := indexIn_iff.mpr ⟨hge, hle⟩
    exact decodeControl_row (p := phaseExp) (by rw [decodeControl?_exp, if_pos hrow])
  · intro t hle
    exact decodeControl_rnd_row (by rw [decodeRound_eq, if_pos hle])
  · intro t hge hle
    exact decodeControl_rnd_row (by rw [decodeRound_eq, if_neg (by omega), if_pos hle])
  · intro t hge hle
    exact decodeControl_rnd_row (by rw [decodeRound_eq, if_neg (by omega), if_neg (by omega), if_pos hle])
  · intro t hge hle
    exact decodeControl_rnd_row
      (by rw [decodeRound_eq, if_neg (by omega), if_neg (by omega), if_neg (by omega), if_pos hle])

end Sys2Proof
end

section
/-! A reserved control word faults on the engine's turn, and no step leaves one (`30_encoding.md` R95). -/

namespace Sys2Proof.Machine

open Sys2Proof Sys2Proof.Safety

/-! ### The first clause: the engine's turn -/

theorem present_engine {s : State} (hr : s.rst = false) (hn : nextTurn s = .engine) :
    present s = .word (.control (controlWord s)) := by
  simp [present, hr, hn]

theorem step_engine_reserved {s : State} (hr : s.rst = false) (hn : nextTurn s = .engine)
    (h : legalPc s.phase s.t = false) : step s = .fault (.reservedControlWord (controlWord s)) := by
  have hd : decode (.control (controlWord s)) = .error (.reservedControlWord (controlWord s)) :=
    decodeControl_reserved h
  rw [step, present_engine hr hn]
  simp only [hd]
  rfl

/-! ### The second clause: what every step leaves is legal -/

/-- Going on within a phase or to the next one is legal if both ways are. -/
theorem legalPc_advance {p p' : PhaseCode} {k k' : Index} {last : Nat} (s : State)
    (within : k.toNat < last → legalPc p (k + 1) = true) (beyond : legalPc p' k' = true) :
    legalPc (advance p k last p' k' s).phase (advance p k last p' k' s).t = true := by
  obtain ⟨hlt, hp, ht⟩ | ⟨-, hp, ht⟩ := advance_pc p k last p' k' s
  · rw [hp, ht]
    exact within hlt
  · rw [hp, ht]
    exact beyond

theorem toNat_succ_of_lt {k : Index} (h : k.toNat < 79) : (k + 1).toNat = k.toNat + 1 := by
  rw [BitVec.toNat_add]
  simp
  omega

/-- No instruction leaves a reserved control word: a micro-operation writes the next word of R170, a host transaction
writes (PAD, 0) or (FAIL, 0) or none. -/
theorem Effect.keeps_legalPc {i : Instr} {s t : State} (h : Effect s i t) (hs : legalPc s.phase s.t = true) :
    legalPc t.phase t.t = true := by
  cases h with
  | unchanged | wrLen | reply | replyFree => exact hs
  | pad => rw [padded_phase, padded_t]; rfl
  | ldw =>
    refine legalPc_advance _ (fun hlt => ?_) rfl
    rw [legalPc_ldw, toNat_succ_of_lt (by omega)]
    omega
  | exp hge =>
    refine legalPc_advance _ (fun hlt => ?_) rfl
    rw [legalPc_exp, toNat_succ_of_lt hlt]
    omega
  | round =>
    rw [roundUpdate_eq]
    refine legalPc_advance _ (fun hlt => ?_) rfl
    rw [legalPc_rnd, toNat_succ_of_lt hlt]
    omega
  | seed | startRefused | startRun => rfl
  | addh =>
    rw [setPc_phase, setPc_t]
    split <;> rfl

theorem messageTurn_pc {offset : BitVec 29} {byte : Byte} {s t : State} (h : messageTurn offset byte s = .next t) :
    t.phase = s.phase ∧ t.t = s.t := by
  obtain ⟨hm, -⟩ | ⟨hm, -⟩ := messageTurn_cases offset byte s
  · cases hm.symm.trans h
    exact ⟨rfl, rfl⟩
  · cases hm.symm.trans h

theorem resetTurn_keeps_legalPc (asserted : Bool) {s : State} (h : legalPc s.phase s.t = true) :
    legalPc (resetTurn asserted s).phase (resetTurn asserted s).t = true := by
  cases asserted with
  | true => rfl
  | false => exact h

/-- No step writes a reserved control word. -/
theorem step_keeps_legalPc {s t : State} (hs : legalPc s.phase s.t = true) (h : step s = .next t) :
    legalPc t.phase t.t = true := by
  have htake : legalPc (takeTurn s).phase (takeTurn s).t = true := hs
  obtain ⟨-, rfl⟩ | ⟨f, i, -, -, hi⟩ | ⟨offset, byte, -, hm⟩ | ⟨asserted, -, rfl⟩ := step_next_cases h
  · exact htake
  · exact (exec_effect hi).keeps_legalPc htake
  · obtain ⟨hp, ht⟩ := messageTurn_pc hm
    rw [hp, ht]
    exact htake
  · exact resetTurn_keeps_legalPc asserted htake

/-- Settles O4: the decoder knows the legal control words only, and legality is kept by every step. -/
theorem reservedControlWordsFault : Obligations.ReservedControlWordsFault :=
  ⟨fun _ => step_engine_reserved, fun _ _ => step_keeps_legalPc⟩

end Sys2Proof.Machine
end

section
/-! `STATUS` (`30_encoding.md` R99): its bits, and its four values by the phase. -/

namespace Sys2Proof.Machine

open Sys2Proof

/-! ### The status word, bit by bit -/

theorem packStatus_getLsbD (err done busy : Bool) (i : Nat) : (packStatus err done busy).getLsbD i =
    if i = 0 then busy else if i = 1 then done else if i = 2 then err else false := by
  unfold packStatus
  simp only [BitVec.getLsbD_append, BitVec.getLsbD_zero]
  match i with
  | 0 | 1 | 2 => simp
  | i + 3 => simp

@[simp] theorem statusWord_busyBit (s : State) : (statusWord s).getLsbD 0 = busy s := packStatus_getLsbD ..
@[simp] theorem statusWord_doneBit (s : State) : (statusWord s).getLsbD 1 = done s := packStatus_getLsbD ..
@[simp] theorem statusWord_errBit (s : State) : (statusWord s).getLsbD 2 = err s := packStatus_getLsbD ..

theorem statusWord_reservedBits (s : State) {i : Nat} (h : 3 ≤ i) : (statusWord s).getLsbD i = false := by
  rw [statusWord, packStatus_getLsbD, if_neg (by omega), if_neg (by omega), if_neg (by omega)]

/-! ### The flags, by the phase (`10_state.md` R33) -/

/-- The running phases are the codes 1 to 6 (R92). -/
theorem busy_iff {s : State} : busy s = true ↔ 1 ≤ s.phase.toNat ∧ s.phase.toNat ≤ 6 := by
  unfold busy
  generalize s.phase = p
  revert p
  decide

theorem done_iff {s : State} : done s = true ↔ s.phase = phaseDone := beq_iff_eq

theorem err_iff {s : State} : err s = true ↔ s.phase = phaseFail := beq_iff_eq

/-- While the machine is running it is neither done nor in error. -/
theorem flags_of_busy {s : State} (h : busy s = true) : done s = false ∧ err s = false := by
  obtain ⟨-, hle⟩ := busy_iff.mp h
  constructor
  · rw [← Bool.not_eq_true, done_iff]
    intro hp
    simp [hp] at hle
  · rw [← Bool.not_eq_true, err_iff]
    intro hp
    simp [hp] at hle

/-- Settles O43: the bits are the flags, and in each phase the flags give the value. -/
theorem statusHasFourValues : Obligations.StatusHasFourValues := by
  intro s
  refine ⟨?_, ?_, ?_, ?idle, ?running, ?done, ?fail, fun i => statusWord_reservedBits s, ?pins⟩
  · rw [statusWord_busyBit, busy_iff]
  · rw [statusWord_doneBit, done_iff]
  · rw [statusWord_errBit, err_iff]
  case idle =>
    intro hp
    obtain ⟨hb, hd, he⟩ := flags_clear_of_phase_idle hp
    rw [statusWord, hb, hd, he]
    rfl
  case running =>
    intro hge hle
    have hb := busy_iff.mpr ⟨hge, hle⟩
    obtain ⟨hd, he⟩ := flags_of_busy hb
    rw [statusWord, hb, hd, he]
    rfl
  case done =>
    intro hp
    rw [statusWord, busy, done, err, hp]
    rfl
  case fail =>
    intro hp
    rw [statusWord, busy, done, err, hp]
    rfl
  case pins => exact ⟨statusWord_busyBit s, statusWord_doneBit s, statusWord_errBit s⟩

end Sys2Proof.Machine
end

section
/-! The three cases of `PAD` (`40_padding.md` R121 to R126): the block byte by byte, the next state, and the trailer. -/

namespace Sys2Proof.Machine

open Sys2Proof

/-! ### Which case, and which offsets it reads (R121, `20_memory.md` R63) -/

theorem padCount_of_ge {r : Word} (h : 64 ≤ r.toNat) : padCount r = 64 := if_pos h

theorem padCount_of_lt {r : Word} (h : r.toNat < 64) : padCount r = r.toNat := if_neg (Nat.not_le.mpr h)

theorem padded_full {s : State} (h : 64 ≤ s.rem.toNat) :
    padded s = setPadded (blockOf (padByteFull s)) (s.off + 64) (sub32 s.rem 64) false s := if_pos h

theorem padded_tail {s : State} (hge : 56 ≤ s.rem.toNat) (hlt : s.rem.toNat < 64) :
    padded s = setPadded (blockOf (padByteTail s)) (s.off + s.rem) 0 false s := by
  rw [padded, if_neg (Nat.not_le.mpr hlt), if_pos hge]

theorem padded_last {s : State} (h : s.rem.toNat < 56) :
    padded s = setPadded (blockOf (padByteLast s)) (s.off + s.rem) 0 true s := by
  rw [padded, if_neg (by omega), if_neg (Nat.not_le.mpr h)]

/-- A `PAD` whose reads are answered writes the block, `OFF`, `REM`, `FINAL` and the control word (LDW, 0). -/
theorem exec_pad_eq {s : State} {blk : Vector Byte 64} {off rem : Word} {final : Bool}
    (readable : ∀ i, i < padCount s.rem → s.off.toNat + i < 2 ^ 29)
    (hp : padded s = setPadded blk off rem final s) :
    exec .pad s = .next { s with
      blk := blk, off := off, rem := rem, finalFlag := final, phase := 0x2, t := 0 } :=
  execPad_next.mpr ⟨(padReadable_iff s).mpr readable, hp.symm⟩

/-! ### The bytes of a block with a long tail (R123) -/

section Bytes
variable {s : State} {i : Nat}

theorem padByteTail_copied (h : i < s.rem.toNat) : padByteTail s i = messageByte s.msg (s.off.toNat + i) := if_pos h

theorem padByteTail_terminator (h : i = s.rem.toNat) : padByteTail s i = 0x80 := by
  rw [padByteTail, if_neg (by omega), if_pos h, terminator]

theorem padByteTail_zero (h : s.rem.toNat < i) : padByteTail s i = 0x00 := by
  rw [padByteTail, if_neg (by omega), if_neg (by omega)]

/-! ### The bytes of the last block (R124) -/

theorem padByteLast_copied (h : i < s.rem.toNat) : padByteLast s i = messageByte s.msg (s.off.toNat + i) := if_pos h

theorem padByteLast_terminator (h : i = s.rem.toNat) (hr : s.rem.toNat < 56) :
    padByteLast s i = if s.rem.toNat ≠ 0 ∨ s.len.toNat % 64 = 0 then 0x80 else 0x00 := by
  rw [padByteLast, if_neg (by omega), if_pos (by omega : i < 60)]
  simp [h, terminatorDue_iff, terminator]

theorem padByteLast_above (h : s.rem.toNat < i) :
    padByteLast s i = if i < 60 then 0x00 else trailerByte s.len i := by
  have hne : decide (i = s.rem.toNat) = false := decide_eq_false (by omega)
  rw [padByteLast, if_neg (by omega), hne]
  rfl

theorem padByteLast_zero (h : s.rem.toNat < i) (hi : i < 60) : padByteLast s i = 0x00 := by
  rw [padByteLast_above h, if_pos hi]

theorem padByteLast_trailer (hr : s.rem.toNat < 56) (hi : 60 ≤ i) : padByteLast s i = trailerByte s.len i := by
  rw [padByteLast_above (by omega), if_neg (Nat.not_lt.mpr hi)]

end Bytes

/-- Settles O16: `padByteLast` gives each byte of the block its part, and the trailer's are those of `LEN << 3`. -/
theorem padEndsMessage : Obligations.PadEndsMessage := by
  intro s hr hread
  refine ⟨_, exec_pad_eq (by rwa [padCount_of_lt (by omega)]) (padded_last hr), fun i => ?_, ?_⟩
  · rw [blockOf_fin]
    exact ⟨padByteLast_copied, fun hi => padByteLast_terminator hi hr, padByteLast_zero⟩
  · simp only [blockOf_getElem, padByteLast_trailer hr, Nat.reduceLeDiff]
    exact ⟨rfl, rfl, rfl, rfl⟩

/-- Settles O14: every byte of the block is a message byte. -/
theorem padCopiesFullBlock : Obligations.PadCopiesFullBlock := by
  intro s hr hread
  exact ⟨_, exec_pad_eq (by rwa [padCount_of_ge hr]) (padded_full hr), fun i => blockOf_fin _ i⟩

/-- Settles O15: `padByteTail` is the message below `REM`, the terminator at `REM` and zero above it. -/
theorem padTerminatesLongTail : Obligations.PadTerminatesLongTail := by
  intro s hge hlt hread
  refine ⟨_, exec_pad_eq (by rwa [padCount_of_lt hlt]) (padded_tail hge hlt), fun i => ?_⟩
  rw [blockOf_fin]
  exact ⟨padByteTail_copied, padByteTail_terminator, padByteTail_zero⟩

/-! ### The trailer as a number (R126) -/

theorem trailerBytes_append (len : Word) :
    (trailerByte len 60 ++ trailerByte len 61 ++ trailerByte len 62 ++ trailerByte len 63 :
      BitVec (8 + 8 + 8 + 8)) = bitLength len := by
  change ((bitLength len).extractLsb' 24 8 ++ (bitLength len).extractLsb' 16 8 ++ (bitLength len).extractLsb' 8 8 ++
    (bitLength len).extractLsb' 0 8 : BitVec (8 + 8 + 8 + 8)) = bitLength len
  rw [BitVec.extractLsb'_append_extractLsb'_eq_extractLsb' (show 24 = 16 + 8 from rfl),
    BitVec.extractLsb'_append_extractLsb'_eq_extractLsb' (show 16 = 8 + 8 from rfl),
    BitVec.extractLsb'_append_extractLsb'_eq_extractLsb' (show 8 = 0 + 8 from rfl)]
  exact BitVec.extractLsb'_eq_self

/-- No bit of an admitted length is shifted out. -/
theorem bitLength_toNat {len : Word} (h : len.toNat ≤ 536870911) : (bitLength len).toNat = 8 * len.toNat := by
  rw [bitLength, BitVec.toNat_shiftLeft, Nat.shiftLeft_eq, Nat.mod_eq_of_lt (by omega), Nat.mul_comm]

theorem trailerByte_lowBits (len : Word) : (trailerByte len 63).extractLsb' 0 3 = 0 := by
  change ((len <<< 3).extractLsb' 0 8).extractLsb' 0 3 = 0
  ext i hi
  simp [hi]

/-- Settles O17: in case 3 bytes 56 to 59 are zeros and 60 to 63 the trailer's, which together are `bitLength LEN`. -/
theorem trailerIsBitLength : Obligations.TrailerIsBitLength := by
  intro s t hlen hr h
  obtain ⟨-, rfl⟩ := execPad_next.mp h
  have zero {i : Nat} (hge : 56 ≤ i) (hlt : i < 60) : padByteLast s i = 0x00 :=
    padByteLast_zero (Nat.lt_of_lt_of_le hr hge) hlt
  rw [padded_last hr, setPadded_blk]
  simp only [blockOf_getElem, padByteLast_trailer hr, Nat.reduceLeDiff]
  refine ⟨zero (by decide) (by decide), zero (by decide) (by decide), zero (by decide) (by decide),
    zero (by decide) (by decide), ?_, trailerByte_lowBits s.len⟩
  rw [trailerBytes_append, bitLength_toNat hlen]

end Sys2Proof.Machine
end

section
/-! The schedule (`41_schedule.md` R140, R141): the next state of `LDW` and `EXP` as one update of the vector's entry and
the control word. -/

namespace Sys2Proof.Machine

open Sys2Proof

/-- A word index in the range of R14 is in the vector's bounds, so the write is made. -/
theorem setWord_eq_set {i : Nat} (hi : i < 80) (v : Word) (s : State) :
    setWord i v s = { s with w := s.w.set i v hi } := by
  have hset : s.w.setIfInBounds i v = s.w.set i v hi :=
    Vector.toArray_inj.mp (by simp [Array.setIfInBounds_def, hi])
  rw [setWord, hset]

/-- `advance` writes the two fields of the control word only. -/
theorem advance_eq (p : PhaseCode) (k : Index) (last : Nat) (p' : PhaseCode) (k' : Index) (s : State) :
    advance p k last p' k' s = { s with
      phase := if k.toNat < last then p else p'
      t := if k.toNat < last then k + 1 else k' } := by
  unfold advance
  split <;> rfl

theorem decodeControl_ldw {t : Index} (h : t.toNat ≤ 15) :
    decodeControl (BitVec.ofNat 11 (0x100 + t.toNat)) = .ok (.ldw t) := by
  obtain ⟨-, -, -, -, -, -, hldw, -⟩ := controlWordTable
  exact hldw t h

theorem decodeControl_exp {t : Index} (hge : 16 ≤ t.toNat) (hle : t.toNat ≤ 79) :
    decodeControl (BitVec.ofNat 11 (0x180 + t.toNat)) = .ok (.exp t) := by
  obtain ⟨-, -, -, -, -, -, -, hexp, -⟩ := controlWordTable
  exact hexp t hge hle

/-- Settles O21: within its range `LDW` loads `blockWord`, which in the vector's entries is the reference's word. -/
theorem ldwLoadsBigEndianWord : Obligations.LdwLoadsBigEndianWord := by
  intro t s hle
  refine ⟨decodeControl_ldw hle, ?_⟩
  have hrow : indexIn 0 15 t = true := indexIn_iff.mpr ⟨Nat.zero_le _, hle⟩
  have hnext : exec (.ldw t) s = .next _ := execLdw_next.mpr ⟨hrow, rfl⟩
  rw [hnext, advance_eq, setWord_eq_set (by omega), blockWord_eq_loadedWord _ _ (by omega)]
  rfl

/-- Settles O22: within its range `EXP` computes `expandWord`, which in the vector's entries is the reference's word. -/
theorem expExpandsSchedule : Obligations.ExpExpandsSchedule := by
  intro t s hge hle
  refine ⟨decodeControl_exp hge hle, ?_⟩
  have hrow : indexIn 16 79 t = true := indexIn_iff.mpr ⟨hge, hle⟩
  have hnext : exec (.exp t) s = .next _ := execExp_next.mpr ⟨hrow, rfl⟩
  rw [hnext, advance_eq, setWord_eq_set (by omega), expandWord_eq_expandedWord _ _ (by omega)]
  rfl

end Sys2Proof.Machine
end

section
/-! The compression loop (`42_compression.md` R150 to R156): the round update as one update of the state's fields, for
the whole range of R93, and the four variants as its instances. -/

namespace Sys2Proof.Machine

open Sys2Proof

/-! ### The round update, common to the four variants (R151) -/

theorem roundTmp_eq (a f e k wt : Word) : roundTmp a f e k wt = a.rotateLeft 5 + f + e + k + wt := by
  rw [roundTmp, rotl_eq_rotateLeft (by decide)]
  rfl

/-- The round update writes `A..E` and the control word; the schedule word is the vector's entry, since the index is in
its bounds. -/
theorem roundUpdate_eq_fields (f k : Word) {t : Index} (h : t.toNat ≤ 79) (s : State) :
    roundUpdate f k t s = { s with
      a := s.a.rotateLeft 5 + f + s.e + k + s.w[t.toNat]
      b := s.a, c := s.b.rotateLeft 30, d := s.c, e := s.d
      phase := if t.toNat < 79 then phaseRnd else phaseAddh
      t := if t.toNat < 79 then t + 1 else 0 } := by
  rw [roundUpdate_eq, advance_eq, roundTmp_eq, rotl_eq_rotateLeft (by decide), wordAt_of_lt _ _ (by omega)]
  rfl

/-- Before round 79 the next control word is (RND, t + 1). -/
theorem roundUpdate_eq_within (f k : Word) {t : Index} (h : t.toNat < 79) (s : State) :
    roundUpdate f k t s = { s with
      a := s.a.rotateLeft 5 + f + s.e + k + s.w[t.toNat]
      b := s.a, c := s.b.rotateLeft 30, d := s.c, e := s.d, phase := phaseRnd, t := t + 1 } := by
  rw [roundUpdate_eq_fields f k (by omega), if_pos h, if_pos h]

/-! ### The four variants within their ranges (R152 to R155) -/

section Variants
variable {t : Index} (s : State)

theorem exec_rndCh (hle : t.toNat ≤ 19) :
    exec (.rndCh t) s = .next (roundUpdate (fCh s.b s.c s.d) k0 t s) :=
  execRndCh_next.mpr ⟨indexIn_iff.mpr ⟨Nat.zero_le _, hle⟩, rfl⟩

theorem exec_rndP1 (hge : 20 ≤ t.toNat) (hle : t.toNat ≤ 39) :
    exec (.rndP1 t) s = .next (roundUpdate (fP1 s.b s.c s.d) k1 t s) :=
  execRndP1_next.mpr ⟨indexIn_iff.mpr ⟨hge, hle⟩, rfl⟩

theorem exec_rndMaj (hge : 40 ≤ t.toNat) (hle : t.toNat ≤ 59) :
    exec (.rndMaj t) s = .next (roundUpdate (fMaj s.b s.c s.d) k2 t s) :=
  execRndMaj_next.mpr ⟨indexIn_iff.mpr ⟨hge, hle⟩, rfl⟩

theorem exec_rndP2 (hge : 60 ≤ t.toNat) (hle : t.toNat ≤ 79) :
    exec (.rndP2 t) s = .next (roundUpdate (fP2 s.b s.c s.d) k3 t s) :=
  execRndP2_next.mpr ⟨indexIn_iff.mpr ⟨hge, hle⟩, rfl⟩

end Variants

/-- Settles O28: `seg = floor(t / 20)` selects the variant in the decoder, and with it the function and the constant of
the common update. -/
theorem everyRoundIsCommonUpdate : Obligations.EveryRoundIsCommonUpdate := by
  intro t s hle
  have hseg : t.toNat / 20 = 0 ∨ t.toNat / 20 = 1 ∨ t.toNat / 20 = 2 ∨ t.toNat / 20 = 3 := by omega
  obtain hseg | hseg | hseg | hseg := hseg <;> rw [hseg]
  · refine ⟨.rndCh t, decodeControl_rnd_row (by simp [decodeRound, hseg]), ?_⟩
    rw [exec_rndCh s (by omega), roundUpdate_eq_fields _ _ hle]
    rfl
  · refine ⟨.rndP1 t, decodeControl_rnd_row (by simp [decodeRound, hseg]), ?_⟩
    rw [exec_rndP1 s (by omega) (by omega), roundUpdate_eq_fields _ _ hle]
    rfl
  · refine ⟨.rndMaj t, decodeControl_rnd_row (by simp [decodeRound, hseg]), ?_⟩
    rw [exec_rndMaj s (by omega) (by omega), roundUpdate_eq_fields _ _ hle]
    rfl
  · refine ⟨.rndP2 t, decodeControl_rnd_row (by simp [decodeRound, hseg]), ?_⟩
    rw [exec_rndP2 s (by omega) hle, roundUpdate_eq_fields _ _ hle]
    rfl

/-- Settles O24: the update with `F_0` and `K[0]`; the range ends before round 79. -/
theorem rndChUpdatesWorking : Obligations.RndChUpdatesWorking := by
  intro t s hle
  rw [exec_rndCh s hle, roundUpdate_eq_within _ _ (by omega)]
  rfl

/-- Settles O25: the update with `F_1` and `K[1]`; the range ends before round 79. -/
theorem rndP1UpdatesWorking : Obligations.RndP1UpdatesWorking := by
  intro t s hge hle
  rw [exec_rndP1 s hge hle, roundUpdate_eq_within _ _ (by omega)]
  rfl

/-- Settles O26: the update with `F_2` and `K[2]`; the range ends before round 79. -/
theorem rndMajUpdatesWorking : Obligations.RndMajUpdatesWorking := by
  intro t s hge hle
  rw [exec_rndMaj s hge hle, roundUpdate_eq_within _ _ (by omega)]
  rfl

/-- Settles O27: the update with `F_3` and `K[3]`, whose range holds round 79. -/
theorem rndP2UpdatesWorking : Obligations.RndP2UpdatesWorking := by
  intro t s hge hle
  rw [exec_rndP2 s hge hle, roundUpdate_eq_fields _ _ hle]
  rfl

/-! ### The two ends of the loop (R150, R156) -/

/-- Settles O23: the word is the row's (SEED, 0), and `execSeed_eq` is the update field by field. -/
theorem seedCopiesHash : Obligations.SeedCopiesHash :=
  ⟨decodeControl_row (decodeControl?_seed 0), execSeed_eq⟩

/-- Settles O31: the word is the row's (ADDH, 0), and `execAddh_eq` is the update field by field. -/
theorem addhAccumulatesHash : Obligations.AddhAccumulatesHash :=
  ⟨decodeControl_row (decodeControl?_addh 0), execAddh_eq⟩

end Sys2Proof.Machine
end

section
/-! The decoder of host words by the slot of the register space (`30_encoding.md` R97, `20_memory.md` R68). -/

namespace Sys2Proof

theorem decodeHost_write (idx : BitVec 4) (v : Word) : decodeHost (mkHostWord 1 idx v) = decodeWrite idx v := by
  rw [decodeHost, hwWrite_mk, if_pos rfl, hwIdx_mk, hwData_mk]

/-- The data of a read is ignored (R96). -/
theorem decodeHost_read (idx : BitVec 4) (v : Word) : decodeHost (mkHostWord 0 idx v) = decodeRead idx := by
  rw [decodeHost, hwWrite_mk, if_neg (by decide), hwIdx_mk]

/-- The nine slots of R68, and the reserved ones above them. -/
theorem slot_cases (idx : BitVec 4) :
    idx = idxCtrl ∨ idx = idxStatus ∨ idx = idxLen ∨ idx = idxBlkcnt ∨ idx = idxH0 ∨ idx = idxH1 ∨ idx = idxH2 ∨
      idx = idxH3 ∨ idx = idxH4 ∨ 9 ≤ idx.toNat := by
  revert idx
  decide

/-- Of a write to `CTRL` only bit 0 counts (R98). -/
theorem decodeWrite_ctrl (v : Word) : decodeWrite idxCtrl v = if v.getLsbD 0 then .start else .cnop := rfl

theorem ne_of_reservedSlot {idx slot : BitVec 4} (h : 9 ≤ idx.toNat) (hslot : slot.toNat < 9) : idx ≠ slot := by
  rintro rfl
  omega

theorem decodeWrite_reserved {idx : BitVec 4} (h : 9 ≤ idx.toNat) (v : Word) : decodeWrite idx v = .wrRsvd idx v := by
  simp [decodeWrite, ne_of_reservedSlot h]

theorem decodeRead_reserved {idx : BitVec 4} (h : 9 ≤ idx.toNat) : decodeRead idx = .rdRsvd idx := by
  simp [decodeRead, ne_of_reservedSlot h]

end Sys2Proof
end

section
/-! The host's transactions (`43_sequencer_and_host.md` R171 to R179): the branches of `START` and `WR.LEN`, the accesses
without effect, and what the reads return. -/

namespace Sys2Proof.Machine

open Sys2Proof

/-! ### `START` and `WR.LEN` (R171, R173) -/

theorem lengthExceeded_iff {len : Word} : lengthExceeded len = true ↔ 0x1FFFFFFF < len.toNat := decide_eq_true_iff

theorem exec_start_busy {s : State} (hb : busy s = true) : exec .start s = .next s := if_pos hb

theorem exec_start_notBusy {s : State} (hb : busy s = false) : exec .start s = .next
    (if lengthExceeded s.len then raiseLengthExceeded (acceptStart s) else beginRun (acceptStart s)) := by
  obtain ⟨hbusy, -⟩ | ⟨-, hl, hs⟩ | ⟨-, hl, hs⟩ := execStart_cases s
  · rw [hb] at hbusy
    contradiction
  · rw [hl]
    exact hs
  · rw [hl]
    exact hs

/-- The `START` of a refused length, field by field. -/
theorem exec_start_refused {s : State} (hb : busy s = false) (hl : 0x1FFFFFFF < s.len.toNat) :
    exec .start s = .next { s with blkcnt := 0, finalFlag := false, phase := phaseFail, t := 0 } := by
  rw [exec_start_notBusy hb, if_pos (lengthExceeded_iff.mpr hl)]
  rfl

/-- The `START` of an admitted length, field by field. -/
theorem exec_start_run {s : State} (hb : busy s = false) (hl : s.len.toNat ≤ 0x1FFFFFFF) :
    exec .start s = .next { s with
      h := ivWords, rem := s.len, off := 0, blkcnt := 0, finalFlag := false, phase := phasePad, t := 0 } := by
  rw [exec_start_notBusy hb, if_neg (mt lengthExceeded_iff.mp (Nat.not_lt.mpr hl))]
  rfl

/-- Settles O35: the decoder reads bit 0 only, and the three branches of `START` are its three equations. -/
theorem startBeginsRun : Obligations.StartBeginsRun := by
  refine ⟨fun v hv => ?_, fun s => ⟨exec_start_busy, exec_start_refused, exec_start_run⟩⟩
  rw [decodeHost_write, decodeWrite_ctrl, if_pos hv]

theorem exec_wrLen_busy {v : Word} {s : State} (hb : busy s = true) : exec (.wrLen v) s = .next s := if_pos hb

theorem exec_wrLen_notBusy {v : Word} {s : State} (hb : busy s = false) :
    exec (.wrLen v) s = .next { s with len := v } := by
  obtain ⟨hbusy, -⟩ | ⟨-, hs⟩ := execWrLen_cases v s
  · rw [hb] at hbusy
    contradiction
  · exact hs

/-- Settles O39: slot 2 is `LEN`, and only the flag `BUSY` decides whether the value is stored. -/
theorem wrLenStoresUnlessBusy : Obligations.WrLenStoresUnlessBusy :=
  fun v _ => ⟨decodeHost_write idxLen v, exec_wrLen_notBusy, exec_wrLen_busy⟩

/-! ### The accesses without effect (R172, R179) -/

/-- `CTRL` and `LEN` are the only slots a write can have an effect through (R179). -/
theorem exec_decodeWrite_ignored {idx : BitVec 4} (hctrl : idx ≠ idxCtrl) (hlen : idx ≠ idxLen) (v : Word) (s : State) :
    exec (decodeWrite idx v) s = .next s := by
  obtain h | rfl | h | rfl | rfl | rfl | rfl | rfl | rfl | h := slot_cases idx
  · exact absurd h hctrl
  · rfl
  · exact absurd h hlen
  · rfl
  · rfl
  · rfl
  · rfl
  · rfl
  · rfl
  · rw [decodeWrite_reserved h]
    rfl

/-- Settles O40: by mnemonic each meaning answers the same state; by word, every slot but `CTRL` and `LEN` is ignored. -/
theorem accessesWithoutEffect : Obligations.AccessesWithoutEffect := by
  intro v idx s
  refine ⟨rfl, rfl, rfl, rfl, rfl, rfl, rfl, rfl, rfl, rfl, fun hv => ?cnop, fun hctrl hlen => ?ignored, fun h => ?rsvd⟩
  case cnop => rw [decodeHost_write, decodeWrite_ctrl, hv]; rfl
  case ignored => rw [decodeHost_write]; exact exec_decodeWrite_ignored hctrl hlen v s
  case rsvd => rw [decodeHost_read, decodeRead_reserved h]

/-! ### The reads (R174 to R178) -/

/-- `BUSY` as a range of phase codes. -/
theorem busy_eq_range (s : State) : busy s = (decide (1 ≤ s.phase.toNat) && decide (s.phase.toNat ≤ 6)) := by
  rw [Bool.eq_iff_iff, busy_iff, Bool.and_eq_true, decide_eq_true_iff, decide_eq_true_iff]

/-- Settles O41: the slots' rows, and each read's reply; the bits of `STATUS` are the flags of the phase. -/
theorem plainReadsReturn : Obligations.PlainReadsReturn := by
  intro v s
  refine ⟨decodeHost_read idxStatus v, decodeHost_read idxLen v, decodeHost_read idxBlkcnt v,
    decodeHost_read idxCtrl v, ?status, rfl, rfl, rfl⟩
  case status =>
    rw [← busy_eq_range]
    rfl

theorem replyHash_of_done (j : Fin 5) {s : State} (h : done s = true) : replyHash j s = reply s.h[j] s := if_pos h

theorem replyHash_of_not_done (j : Fin 5) {s : State} (h : done s = false) : replyHash j s = replyFree s :=
  if_neg (by simp [h])

/-- The five reads of `H` are one meaning at five indices. -/
theorem exec_rdHash {i : Instr} (hi : i = .rdH0 ∨ i = .rdH1 ∨ i = .rdH2 ∨ i = .rdH3 ∨ i = .rdH4) (s : State) :
    ∃ j : Fin 5, exec i s = .next (replyHash j s) := by
  obtain rfl | rfl | rfl | rfl | rfl := hi
  · exact ⟨0, rfl⟩
  · exact ⟨1, rfl⟩
  · exact ⟨2, rfl⟩
  · exact ⟨3, rfl⟩
  · exact ⟨4, rfl⟩

/-- Settles O42: with `DONE` each read answers its word of `H`; without it all five answer alike, with the next draw. -/
theorem hashReadsNeedDone : Obligations.HashReadsNeedDone := by
  intro v s
  refine ⟨decodeHost_read idxH0 v, decodeHost_read idxH1 v, decodeHost_read idxH2 v, decodeHost_read idxH3 v,
    decodeHost_read idxH4 v, fun hd => ?digest, fun hd i hi => ?free⟩
  case digest =>
    have answer (j : Fin 5) : (.next (replyHash j s) : Result) = .next (reply s.h[j] s) := by
      rw [replyHash_of_done j hd]
    exact ⟨answer 0, answer 1, answer 2, answer 3, answer 4⟩
  case free =>
    obtain ⟨j, hj⟩ := exec_rdHash hi s
    rw [hj, replyHash_of_not_done j hd]
    rfl

end Sys2Proof.Machine
end

section
/-! The one exception (`60_exceptions.md` R200 to R205): which instruction raises `ERR`, what taking it writes, and which
turns clear it. -/

namespace Sys2Proof.Machine

open Sys2Proof

/-! ### What an instruction does to `ERR` -/

/-- `ERR` is a function of `PHASE` (R33). -/
theorem err_congr {s t : State} (h : t.phase = s.phase) : err t = err s := by
  rw [err, err, h]

theorem err_eq_false_of_phase {s : State} {p : PhaseCode} (h : s.phase = p) (hp : p ≠ phaseFail) : err s = false := by
  rw [← Bool.not_eq_true, err_iff, h]
  exact hp

theorem busy_of_err {s : State} (h : err s = true) : busy s = false := by
  rw [← Bool.not_eq_true]
  intro hb
  obtain ⟨-, he⟩ := flags_of_busy hb
  rw [h] at he
  contradiction

theorem err_advance {p p' : PhaseCode} (hp : p ≠ phaseFail) (hp' : p' ≠ phaseFail) (k k' : Index) (last : Nat)
    (s : State) : err (advance p k last p' k' s) = false := by
  obtain ⟨-, hphase, -⟩ | ⟨-, hphase, -⟩ := advance_pc p k last p' k' s
  · exact err_eq_false_of_phase hphase hp
  · exact err_eq_false_of_phase hphase hp'

/-- A micro-operation goes on to a phase other than FAIL, an accepted `START` tests the length, and no other instruction
writes `PHASE`. -/
theorem Effect.err_cases {i : Instr} {s t : State} (h : Effect s i t) :
    t.phase = s.phase ∨ (i.isEngine = true ∧ err t = false) ∨
      (i = .start ∧ busy s = false ∧ err t = lengthExceeded s.len) := by
  cases h with
  | unchanged | wrLen | reply | replyFree => exact .inl rfl
  | pad => exact .inr (.inl ⟨rfl, err_eq_false_of_phase (padded_phase s) (by decide)⟩)
  | ldw | exp => exact .inr (.inl ⟨rfl, err_advance (by decide) (by decide) ..⟩)
  | seed => exact .inr (.inl ⟨rfl, rfl⟩)
  | round f c variant =>
    refine .inr (.inl ⟨?_, roundUpdate_eq f c _ s ▸ err_advance (by decide) (by decide) ..⟩)
    obtain rfl | rfl | rfl | rfl := variant <;> rfl
  | addh =>
    refine .inr (.inl ⟨rfl, err_eq_false_of_phase (setPc_phase ..) ?_⟩)
    split <;> decide
  | startRefused idle exceeded => exact .inr (.inr ⟨rfl, idle, exceeded.symm⟩)
  | startRun idle admitted => exact .inr (.inr ⟨rfl, idle, admitted.symm⟩)

/-! ### Raising it (R201, R203) -/

/-- The cause code of LengthExceeded is bit 2 of `STATUS` alone. -/
theorem statusWord_of_err {s : State} (h : err s = true) : statusWord s = 0x4 := by
  obtain ⟨-, -, -, -, -, -, hfail, -⟩ := statusHasFourValues s
  exact hfail (err_iff.mp h)

/-- Settles O37: the `START` of a refused length, field by field. -/
theorem lengthExceededEntry : Obligations.LengthExceededEntry :=
  fun _ => exec_start_refused

/-- Settles O36: `ERR` goes up by the length test of an accepted `START` only, and there it is what the test says. -/
theorem onlyStartRaisesLengthExceeded : Obligations.OnlyStartRaisesLengthExceeded := by
  intro i s t h hs
  refine ⟨⟨fun ht => ?raised, fun ⟨hi, hb, hl⟩ => ?raises⟩, statusWord_of_err⟩
  case raised =>
    obtain hphase | ⟨-, hclear⟩ | ⟨hi, hb, hlen⟩ := (exec_effect h).err_cases
    · rw [err_congr hphase, hs] at ht
      contradiction
    · rw [hclear] at ht
      contradiction
    · exact ⟨hi, hb, lengthExceeded_iff.mp (hlen.symm.trans ht)⟩
  case raises =>
    subst hi
    cases (exec_start_refused hb hl).symm.trans h
    rfl

/-! ### Clearing it (R205) -/

/-- A host word decodes to a transaction, never to a micro-operation (R90). -/
theorem decodeHost_isEngine (tw : HostWord) : (decodeHost tw).isEngine = false := by
  simp only [decodeHost, decodeWrite, decodeRead, apply_ite Instr.isEngine]
  simp [Instr.isEngine]

/-- In FAIL the only control word that is not reserved is that of `HLT.FAIL` (R182). -/
theorem decode_of_err {s : State} {i : Instr} (hs : err s = true)
    (hd : decode (.control (controlWord s)) = .ok i) : i = .hltFail := by
  change decodeControl (controlWord s) = .ok i at hd
  rw [decodeControl, controlWord, err_iff.mp hs, decodeControl?_fail] at hd
  by_cases ht : s.t = 0
  · rw [if_pos ht] at hd
    cases hd
    rfl
  · rw [if_neg ht] at hd
    cases hd

theorem nextTurn_of_present_reset {s : State} {asserted : Bool} (h : present s = .reset asserted) :
    nextTurn s = .reset asserted := by
  unfold present at h
  cases hn : nextTurn s with
  | engine | host => cases hr : s.rst <;> simp [hn, hr] at h
  | message => simp [hn] at h
  | reset => simpa [hn] using h

/-- From FAIL, a host transaction other than `START` leaves `PHASE` alone. -/
theorem exec_decodeHost_phase {tw : HostWord} {s t : State} (hstart : decodeHost tw ≠ .start)
    (h : exec (decodeHost tw) s = .next t) : t.phase = s.phase := by
  obtain hphase | ⟨hengine, -⟩ | ⟨hi, -⟩ := (exec_effect h).err_cases
  · exact hphase
  · rw [decodeHost_isEngine] at hengine
    contradiction
  · exact absurd hi hstart

/-- A step from FAIL stays there, unless the host writes `START` or `rst` is asserted. -/
theorem step_of_err {s t : State} (hs : err s = true) (h : step s = .next t) :
    t.phase = s.phase ∨ (s.rst = false ∧ ∃ tw, nextTurn s = .host tw ∧ decodeHost tw = .start) ∨
      nextTurn s = .reset true := by
  obtain ⟨-, rfl⟩ | ⟨f, i, hp, hd, hi⟩ | ⟨offset, byte, -, hm⟩ | ⟨asserted, hp, rfl⟩ := step_next_cases h
  · exact .inl rfl
  · obtain ⟨hr, ⟨-, rfl⟩ | ⟨tw, hn, rfl⟩⟩ := present_word hp
    · cases decode_of_err hs hd
      cases hi
      exact .inl rfl
    · cases hd
      by_cases hstart : decodeHost tw = .start
      · exact .inr (.inl ⟨hr, tw, hn, hstart⟩)
      · exact .inl ((exec_decodeHost_phase hstart hi).trans (takeTurn_phase s))
  · exact .inl (messageTurn_pc hm).1
  · cases asserted with
    | true => exact .inr (.inr (nextTurn_of_present_reset hp))
    | false => exact .inl rfl

/-- What an accepted `START` leaves in `ERR` is the outcome of its length test (R201, R205). -/
theorem exec_start_err {s : State} (hb : busy s = false) :
    ∃ t, exec .start s = .next t ∧ (err t = false ↔ s.len.toNat ≤ 0x1FFFFFFF) := by
  by_cases hl : s.len.toNat ≤ 0x1FFFFFFF
  · exact ⟨_, exec_start_run hb hl, iff_of_true rfl hl⟩
  · exact ⟨_, exec_start_refused hb (Nat.lt_of_not_le hl), iff_of_false Bool.false_ne_true.symm hl⟩

theorem err_resetTurn_true (s : State) : err (resetTurn true s) = false := rfl

/-- Settles O38: FAIL is kept by every step but those two, a `START` from FAIL is accepted, and reset goes to IDLE. -/
theorem errClearedByStartOrReset : Obligations.ErrClearedByStartOrReset := by
  refine ⟨fun s t hs h ht => ?_, fun s hs => ⟨exec_start_err (busy_of_err hs), err_resetTurn_true s⟩⟩
  obtain hphase | hcleared := step_of_err hs h
  · rw [err_congr hphase, hs] at ht
    contradiction
  · exact hcleared

end Sys2Proof.Machine
end

section
/-! Asserting `rst` (`70_reset_and_hazards.md` R230, R231): the step that does it, and what an engine in `IDLE` shows. -/

namespace Sys2Proof.Machine

open Sys2Proof

/-- A change of the level of `rst` is carried out in any state, in mid-run and under reset too (R230). -/
theorem step_reset {s : State} {asserted : Bool} {rest : List Turn} (h : s.agenda = .reset asserted :: rest) :
    step s = .next (resetTurn asserted (takeTurn s)) := by
  have hp : present s = .reset asserted := by simp [present, nextTurn, h]
  rw [step, hp]

theorem statusWord_of_phase_idle {s : State} (h : s.phase = phaseIdle) : statusWord s = 0 := by
  obtain ⟨-, -, -, hidle, -⟩ := statusHasFourValues s
  exact hidle h

/-- At (IDLE, 0) the control word is that of `HLT.IDLE`, for which the engine has no step (R93, R180). -/
theorem decodeControl_of_idle {s : State} (hp : s.phase = phaseIdle) (ht : s.t = 0) :
    decodeControl (controlWord s) = .ok .hltIdle := by
  rw [controlWord, hp, ht, decodeControl, decodeControl?_idle, if_pos rfl]

/-- Settles O11: the step writes the values of R39, and `PHASE = IDLE` with `T = 0` gives `STATUS`, the pins and the
control word. -/
theorem resetWritesResetState : Obligations.ResetWritesResetState := by
  intro s rest hs
  have hphase : (resetTurn true (takeTurn s)).phase = phaseIdle := applyReset_phase (takeTurn s)
  have ht : (resetTurn true (takeTurn s)).t = 0 := applyReset_t (takeTurn s)
  obtain ⟨hbusy, hdone, herr⟩ := flags_clear_of_phase_idle hphase
  exact ⟨_, step_reset hs, hphase, ht, applyReset_finalFlag (takeTurn s), applyReset_len (takeTurn s),
    applyReset_blkcnt (takeTurn s), statusWord_of_phase_idle hphase, hbusy, hdone, herr,
    decodeControl_of_idle hphase ht⟩

end Sys2Proof.Machine
end

section
/-! The round trips between instructions and words (`30_encoding.md` R93, R97, R105). -/

namespace Sys2Proof

open Sys2Proof.Machine

/-! ### From an instruction to its word and back -/

/-- What the decoder's table holds for a phase and an index is what the word of the two decodes to. -/
theorem decode_control_mk {p : PhaseCode} {t : Index} {i : Instr} (h : decodeControl? (mkControlWord p t) = some i) :
    decode (.control (mkControlWord p t)) = .ok i := by
  rw [decode, decodeControl, h]

theorem decode_host_write (idx : BitVec 4) (v : Word) :
    decode (.host (mkHostWord 1 idx v)) = .ok (decodeWrite idx v) := by
  rw [decode, decodeHost_write]

theorem decode_host_read (idx : BitVec 4) (v : Word) : decode (.host (mkHostWord 0 idx v)) = .ok (decodeRead idx) := by
  rw [decode, decodeHost_read]

theorem decode_control_rnd {t : Index} {i : Instr} (h : decodeRound t = some i) :
    decode (.control (mkControlWord phaseRnd t)) = .ok i :=
  decode_control_mk (by rw [decodeControl?_rnd, h])

theorem decodeRound_rndCh {t : Index} (hle : t.toNat ≤ 19) : decodeRound t = some (.rndCh t) := by
  rw [decodeRound_eq, if_pos hle]

theorem decodeRound_rndP1 {t : Index} (hge : 20 ≤ t.toNat) (hle : t.toNat ≤ 39) : decodeRound t = some (.rndP1 t) := by
  rw [decodeRound_eq, if_neg (by omega), if_pos hle]

theorem decodeRound_rndMaj {t : Index} (hge : 40 ≤ t.toNat) (hle : t.toNat ≤ 59) :
    decodeRound t = some (.rndMaj t) := by
  rw [decodeRound_eq, if_neg (by omega), if_neg (by omega), if_pos hle]

theorem decodeRound_rndP2 {t : Index} (hge : 60 ≤ t.toNat) (hle : t.toNat ≤ 79) : decodeRound t = some (.rndP2 t) := by
  rw [decodeRound_eq, if_neg (by omega), if_neg (by omega), if_neg (by omega), if_pos hle]

theorem reservedSlot_iff {idx : BitVec 4} : reservedSlot idx = true ↔ 9 ≤ idx.toNat := decide_eq_true_iff

/-- Settles O1: a micro-operation's word is its phase and index, which the decoder's table knows; a transaction's word is
its slot and data, which the slot's row reads back. -/
theorem encodeDecodeRoundTrip : Obligations.EncodeDecodeRoundTrip := by
  intro i hi
  cases i with
  | hltIdle => exact decode_control_mk (decodeControl?_idle 0)
  | pad => exact decode_control_mk (decodeControl?_pad 0)
  | ldw t => exact decode_control_mk ((decodeControl?_ldw t).trans (if_pos hi))
  | exp t => exact decode_control_mk ((decodeControl?_exp t).trans (if_pos hi))
  | seed => exact decode_control_mk (decodeControl?_seed 0)
  | rndCh t => exact decode_control_rnd (decodeRound_rndCh (indexIn_iff.mp hi).2)
  | rndP1 t =>
    obtain ⟨hge, hle⟩ := indexIn_iff.mp hi
    exact decode_control_rnd (decodeRound_rndP1 hge hle)
  | rndMaj t =>
    obtain ⟨hge, hle⟩ := indexIn_iff.mp hi
    exact decode_control_rnd (decodeRound_rndMaj hge hle)
  | rndP2 t =>
    obtain ⟨hge, hle⟩ := indexIn_iff.mp hi
    exact decode_control_rnd (decodeRound_rndP2 hge hle)
  | addh => exact decode_control_mk (decodeControl?_addh 0)
  | hltDone => exact decode_control_mk (decodeControl?_done 0)
  | hltFail => exact decode_control_mk (decodeControl?_fail 0)
  | start => exact decode_host_write idxCtrl 1
  | cnop => exact decode_host_write idxCtrl 0
  | wrStatus v => exact decode_host_write idxStatus v
  | wrLen v => exact decode_host_write idxLen v
  | wrBlkcnt v => exact decode_host_write idxBlkcnt v
  | wrH0 v => exact decode_host_write idxH0 v
  | wrH1 v => exact decode_host_write idxH1 v
  | wrH2 v => exact decode_host_write idxH2 v
  | wrH3 v => exact decode_host_write idxH3 v
  | wrH4 v => exact decode_host_write idxH4 v
  | wrRsvd idx v => rw [encode, decode_host_write, decodeWrite_reserved (reservedSlot_iff.mp hi)]
  | rdCtrl => exact decode_host_read idxCtrl 0
  | rdStatus => exact decode_host_read idxStatus 0
  | rdLen => exact decode_host_read idxLen 0
  | rdBlkcnt => exact decode_host_read idxBlkcnt 0
  | rdH0 => exact decode_host_read idxH0 0
  | rdH1 => exact decode_host_read idxH1 0
  | rdH2 => exact decode_host_read idxH2 0
  | rdH3 => exact decode_host_read idxH3 0
  | rdH4 => exact decode_host_read idxH4 0
  | rdRsvd idx => rw [encode, decode_host_read, decodeRead_reserved (reservedSlot_iff.mp hi)]

/-! ### From a word to its instruction and back -/

/-- A row with one index: its instruction's word is the row's. -/
theorem encode_of_onlyIndexZero {p : PhaseCode} {t : Index} {i₀ i : Instr} (hwf : WellFormed i₀)
    (henc : encode i₀ = .control (mkControlWord p 0)) (h : (if t = 0 then some i₀ else none) = some i) :
    WellFormed i ∧ encode i = .control (mkControlWord p t) := by
  obtain ⟨rfl, hi⟩ := Option.ite_none_right_eq_some.mp h
  cases hi
  exact ⟨hwf, henc⟩

/-- The four variants keep the index, within their ranges (R94). -/
theorem encode_of_decodeRound {t : Index} {i : Instr} (h : decodeRound t = some i) :
    WellFormed i ∧ encode i = .control (mkControlWord phaseRnd t) := by
  have inRange {lo hi : Nat} (hge : lo ≤ t.toNat) (hle : t.toNat ≤ hi) : indexIn lo hi t = true :=
    indexIn_iff.mpr ⟨hge, hle⟩
  rw [decodeRound_eq] at h
  split at h
  · cases h; exact ⟨inRange (Nat.zero_le _) ‹_›, rfl⟩
  split at h
  · cases h; exact ⟨inRange (by omega) ‹_›, rfl⟩
  split at h
  · cases h; exact ⟨inRange (by omega) ‹_›, rfl⟩
  split at h
  · cases h; exact ⟨inRange (by omega) ‹_›, rfl⟩
  · cases h

/-- Whatever the decoder's table holds is a well-formed instruction whose word is the row's (R93). -/
theorem encode_of_decodeControl? {p : PhaseCode} {t : Index} {i : Instr}
    (h : decodeControl? (mkControlWord p t) = some i) :
    WellFormed i ∧ encode i = .control (mkControlWord p t) := by
  obtain rfl | rfl | rfl | rfl | rfl | rfl | rfl | rfl | rfl | hp := phase_cases p
  · rw [decodeControl?_idle] at h; exact encode_of_onlyIndexZero rfl rfl h
  · rw [decodeControl?_pad] at h; exact encode_of_onlyIndexZero rfl rfl h
  · rw [decodeControl?_ldw] at h
    obtain ⟨ht, hi⟩ := Option.ite_none_right_eq_some.mp h
    cases hi
    exact ⟨ht, rfl⟩
  · rw [decodeControl?_exp] at h
    obtain ⟨ht, hi⟩ := Option.ite_none_right_eq_some.mp h
    cases hi
    exact ⟨ht, rfl⟩
  · rw [decodeControl?_seed] at h; exact encode_of_onlyIndexZero rfl rfl h
  · rw [decodeControl?_rnd] at h; exact encode_of_decodeRound h
  · rw [decodeControl?_addh] at h; exact encode_of_onlyIndexZero rfl rfl h
  · rw [decodeControl?_done] at h; exact encode_of_onlyIndexZero rfl rfl h
  · rw [decodeControl?_fail] at h; exact encode_of_onlyIndexZero rfl rfl h
  · rw [decodeControl?_reservedPhase t hp] at h; cases h

theorem decodeControl_eq_ok {cw : ControlWord} {i : Instr} : decodeControl cw = .ok i ↔ decodeControl? cw = some i := by
  unfold decodeControl
  split <;> simp_all

theorem encode_of_decodeControl {cw : ControlWord} {i : Instr} (h : decodeControl cw = .ok i) :
    WellFormed i ∧ encode i = .control cw := by
  have hcw := decodeControl_eq_ok.mp h
  rw [← mkControlWord_fields cw] at hcw ⊢
  exact encode_of_decodeControl? hcw

theorem wellFormed_decodeWrite (idx : BitVec 4) (v : Word) : WellFormed (decodeWrite idx v) := by
  obtain rfl | rfl | rfl | rfl | rfl | rfl | rfl | rfl | rfl | h := slot_cases idx
  case inl => rw [decodeWrite_ctrl]; split <;> rfl
  case inr.inr.inr.inr.inr.inr.inr.inr.inr => rw [decodeWrite_reserved h]; exact reservedSlot_iff.mpr h
  all_goals rfl

theorem wellFormed_decodeRead (idx : BitVec 4) : WellFormed (decodeRead idx) := by
  obtain rfl | rfl | rfl | rfl | rfl | rfl | rfl | rfl | rfl | h := slot_cases idx
  case inr.inr.inr.inr.inr.inr.inr.inr.inr => rw [decodeRead_reserved h]; exact reservedSlot_iff.mpr h
  all_goals rfl

theorem wellFormed_decodeHost (tw : HostWord) : WellFormed (decodeHost tw) := by
  unfold decodeHost
  split
  · exact wellFormed_decodeWrite _ _
  · exact wellFormed_decodeRead _

/-- Settles O2: the table's rows hold well-formed instructions with the row's own word, and every slot of the register
space has its transaction. -/
theorem decodedWordsAreWellFormed : Obligations.DecodedWordsAreWellFormed := by
  refine ⟨fun f i h => ?_, fun cw i h => (encode_of_decodeControl h).2⟩
  cases f with
  | control cw => exact (encode_of_decodeControl h).1
  | host tw => cases h; exact wellFormed_decodeHost tw

end Sys2Proof
end

section
/-! What a step can do, said once by the turn that does it, and the end of a run: no turn but the engine's `ADDH` and
reset ends one (`43_sequencer_and_host.md` R183, R187). -/

namespace Sys2Proof.Machine

open Sys2Proof

/-! ### The inversion of a step -/

/-- `StepEffect s t`: the next turn may take `s` to `t`. -/
inductive StepEffect (s : State) : State → Prop where
  /-- An engine or host turn under an asserted `rst` (log 7). -/
  | held : StepEffect s (takeTurn s)
  /-- The engine runs its control word, which is the word of the instruction run. -/
  | engine {i : Instr} {t : State} (released : s.rst = false) (turn : nextTurn s = .engine)
      (decoded : decodeControl (controlWord s) = .ok i) (run : exec i (takeTurn s) = .next t) : StepEffect s t
  | host {tw : HostWord} {t : State} (released : s.rst = false) (turn : nextTurn s = .host tw)
      (run : exec (decodeHost tw) (takeTurn s) = .next t) : StepEffect s t
  /-- The owner puts a byte; below `LEN` of a running message only the one already there (log 9). -/
  | message {offset : BitVec 29} {byte : Byte}
      (kept : busy s = true → offset.toNat < s.len.toNat → s.msg.read offset.toNat = some byte) :
      StepEffect s (setMessage offset.toNat byte (takeTurn s))
  | reset {asserted : Bool} (turn : nextTurn s = .reset asserted) : StepEffect s (resetTurn asserted (takeTurn s))

theorem step_effect {s t : State} (h : step s = .next t) : StepEffect s t := by
  obtain ⟨-, rfl⟩ | ⟨f, i, hp, hd, hi⟩ | ⟨offset, byte, -, hm⟩ | ⟨asserted, hp, rfl⟩ := step_next_cases h
  · exact .held
  · obtain ⟨hr, ⟨hn, rfl⟩ | ⟨tw, hn, rfl⟩⟩ := present_word hp
    · exact .engine hr hn hd hi
    · cases hd
      exact .host hr hn hi
  · obtain ⟨hnext, hkept⟩ | ⟨hrefused, -⟩ := messageTurn_cases offset byte (takeTurn s)
    · cases hnext.symm.trans hm
      exact .message hkept
    · cases hrefused.symm.trans hm
  · exact .reset (nextTurn_of_present_reset hp)

/-- The engine's turn, forwards. -/
theorem step_engine {s : State} {i : Instr} (hr : s.rst = false) (hn : nextTurn s = .engine)
    (hd : decodeControl (controlWord s) = .ok i) : step s = exec i (takeTurn s) := by
  rw [step, present_engine hr hn]
  simp only [decode, hd]

/-- The host's turn, forwards. -/
theorem step_host {s : State} {tw : HostWord} (hr : s.rst = false) (hn : nextTurn s = .host tw) :
    step s = exec (decodeHost tw) (takeTurn s) := by
  have hp : present s = .word (.host tw) := by simp [present, hn, hr]
  rw [step, hp]
  rfl

/-! ### The end of a run -/

theorem busy_congr {s t : State} (h : t.phase = s.phase) : busy t = busy s := by
  rw [busy, busy, h]

theorem busy_of_phase {s : State} {p : PhaseCode} (h : s.phase = p) (hp : busyPhase p = true) : busy s = true := by
  rw [busy, h, hp]

theorem busy_advance {p p' : PhaseCode} (hp : busyPhase p = true) (hp' : busyPhase p' = true) (k k' : Index) (last : Nat)
    (s : State) : busy (advance p k last p' k' s) = true := by
  obtain ⟨-, hphase, -⟩ | ⟨-, hphase, -⟩ := advance_pc p k last p' k' s
  · exact busy_of_phase hphase hp
  · exact busy_of_phase hphase hp'

/-- Of all instructions only the `ADDH` of a final block ends a run, and then in DONE. -/
theorem Effect.busy_or_final {i : Instr} {s t : State} (h : Effect s i t) (hs : busy s = true) :
    busy t = true ∨ (i = .addh ∧ s.finalFlag = true ∧ done t = true) := by
  cases h with
  | unchanged | reply | replyFree => exact .inl hs
  | pad => exact .inl (busy_of_phase (padded_phase s) rfl)
  | ldw | exp => exact .inl (busy_advance rfl rfl ..)
  | seed => exact .inl rfl
  | round => exact .inl (roundUpdate_eq .. ▸ busy_advance rfl rfl ..)
  | addh =>
    cases hf : s.finalFlag with
    | true => exact .inr ⟨rfl, rfl, rfl⟩
    | false => exact .inl rfl
  | startRefused idle | startRun idle | wrLen _ idle => rw [hs] at idle; contradiction

/-- Settles O13: every other turn leaves `BUSY` up, and a host word never decodes to `ADDH`. -/
theorem onlyFinalAddhOrResetEndsRun : Obligations.OnlyFinalAddhOrResetEndsRun := by
  intro s t hs h ht
  have stays (hphase : busy t = true) : False := by rw [hphase] at ht; contradiction
  cases step_effect h with
  | held | message => exact (stays hs).elim
  | engine _ turn decoded run =>
    obtain hb | ⟨rfl, hf, hd⟩ := (exec_effect run).busy_or_final hs
    · exact (stays hb).elim
    · exact .inr ⟨turn, decoded, hf, hd⟩
  | @host tw _ _ _ run =>
    obtain hb | ⟨hi, -⟩ := (exec_effect run).busy_or_final hs
    · exact (stays hb).elim
    · have hhost := decodeHost_isEngine tw
      rw [hi] at hhost
      contradiction
  | @reset asserted turn =>
    cases asserted with
    | true => exact .inl turn
    | false => exact (stays hs).elim

end Sys2Proof.Machine
end


section
/-! The invariant of a run (`10_state.md` R36), kept by every step. -/

namespace Sys2Proof.Machine

open Sys2Proof

/-! ### `PAD` in numbers -/

/-- In all three cases `PAD` takes up to 64 bytes off `REM` and adds as many to `OFF`; the block is the last one when
fewer than 56 were left (R121). -/
theorem padded_toNat {s : State} (h : s.off.toNat + s.rem.toNat < 2 ^ 32) :
    (padded s).rem.toNat = s.rem.toNat - 64 ∧
      (padded s).off.toNat + (padded s).rem.toNat = s.off.toNat + s.rem.toNat ∧
      (padded s).finalFlag = decide (s.rem.toNat < 56) := by
  obtain ⟨hr, hp⟩ | ⟨hge, hlt, hp⟩ | ⟨hr, hp⟩ := padded_cases s <;>
    rw [hp, setPadded_rem, setPadded_off, setPadded_finalFlag]
  · have hrem : (sub32 s.rem 64).toNat = s.rem.toNat - 64 := BitVec.toNat_sub_of_le (y := 64) hr
    have hoff : (s.off + 64).toNat = s.off.toNat + 64 :=
      BitVec.toNat_add_of_lt (y := 64) (show s.off.toNat + 64 < 2 ^ 32 by omega)
    exact ⟨hrem, by omega, (decide_eq_false (by omega)).symm⟩
  · rw [BitVec.toNat_add_of_lt h]
    exact ⟨(Nat.sub_eq_zero_of_le hlt.le).symm, rfl, (decide_eq_false (by omega)).symm⟩
  · rw [BitVec.toNat_add_of_lt h]
    exact ⟨(Nat.sub_eq_zero_of_le (by omega)).symm, rfl, (decide_eq_true hr).symm⟩

end Sys2Proof.Machine

namespace Sys2Proof.Safety

open Sys2Proof Sys2Proof.Machine

/-! ### The invariant, by where the control word stands -/

/-- What the invariant speaks of beside the control word. -/
def runItems (s : State) : Memory × Bool × Word × Word × Word × Word :=
  (s.msg, s.finalFlag, s.len, s.rem, s.off, s.blkcnt)

theorem runItems_eq_iff {s t : State} : runItems t = runItems s ↔ t.msg = s.msg ∧ t.finalFlag = s.finalFlag ∧
    t.len = s.len ∧ t.rem = s.rem ∧ t.off = s.off ∧ t.blkcnt = s.blkcnt := by
  simp [runItems]

theorem runItems_advance (p : PhaseCode) (k : Index) (last : Nat) (p' : PhaseCode) (k' : Index) (s : State) :
    runItems (advance p k last p' k' s) = runItems s := by
  simp [runItems]

theorem Inv.congr {s t : State} (hs : Inv s) (phase : t.phase = s.phase) (index : t.t = s.t)
    (same : runItems t = runItems s) : Inv t := by
  obtain ⟨msg, final, len, rem, off, blkcnt⟩ := runItems_eq_iff.mp same
  refine ⟨?_, by rw [msg]; exact hs.canonical, by rw [final, rem]; exact hs.finalEmpty, fun hb => ?_, ?_, ?_⟩
  · rw [phase, index]; exact hs.legal
  · have hrun := hs.running ((busy_congr phase).symm.trans hb)
    refine ⟨by rw [len]; exact hrun.admitted, by rw [off, rem, len]; exact hrun.split, ?_⟩
    have hplace := hrun.place
    unfold padPosition blockPosition at hplace ⊢
    rwa [phase, final, off, rem, len, blkcnt]
  · rw [done, phase, final]; exact hs.doneFinal
  · rw [phase, blkcnt, final]; exact hs.stoppedClear

/-- The invariant where `BUSY = 1`. -/
theorem inv_of_running {t : State} (legal : legalPc t.phase t.t = true) (canonical : t.msg.wf = true)
    (finalEmpty : t.finalFlag = true → t.rem.toNat = 0) (hb : busy t = true) (run : RunInv t) : Inv t where
  legal := legal
  canonical := canonical
  finalEmpty := finalEmpty
  running _ := run
  doneFinal hd := by
    obtain ⟨hnot, -⟩ := flags_of_busy hb
    rw [hd] at hnot
    contradiction
  stoppedClear hp := by
    obtain ⟨hge, hle⟩ := busy_iff.mp hb
    obtain hp | hp := hp <;> rw [hp] at hge hle <;> simp at hge hle

/-- A block is being expanded or compressed: LDW to ADDH. -/
abbrev InBlock (p : PhaseCode) : Prop := 2 ≤ p.toNat ∧ p.toNat ≤ 6

theorem InBlock.busy {s : State} (h : InBlock s.phase) : busy s = true := by
  obtain ⟨hge, hle⟩ := h
  exact busy_iff.mpr ⟨Nat.le_of_succ_le hge, hle⟩

theorem InBlock.ne_pad {p : PhaseCode} (h : InBlock p) : p ≠ phasePad := by
  rintro rfl
  exact absurd h (by decide)

theorem RunInv.padPosition_of_phase {s : State} (h : RunInv s) (hp : s.phase = phasePad) : padPosition s := by
  have hplace := h.place
  rwa [if_pos hp] at hplace

theorem RunInv.blockPosition_of_inBlock {s : State} (h : RunInv s) (hp : InBlock s.phase) : blockPosition s := by
  have hplace := h.place
  rwa [if_neg hp.ne_pad] at hplace

theorem runInv_of_pad {t : State} (hp : t.phase = phasePad) (admitted : t.len.toNat ≤ 536870911)
    (split : t.off.toNat + t.rem.toNat = t.len.toNat) (place : padPosition t) : RunInv t :=
  ⟨admitted, split, by rwa [if_pos hp]⟩

theorem runInv_of_block {t : State} (hp : InBlock t.phase) (admitted : t.len.toNat ≤ 536870911)
    (split : t.off.toNat + t.rem.toNat = t.len.toNat) (place : blockPosition t) : RunInv t :=
  ⟨admitted, split, by rwa [if_neg hp.ne_pad]⟩

/-- Between LDW and ADDH nothing the position of the run depends on changes. -/
theorem Inv.within_block {s t : State} (hs : Inv s) (hps : InBlock s.phase) (hpt : InBlock t.phase)
    (legal : legalPc t.phase t.t = true) (same : runItems t = runItems s) : Inv t := by
  obtain ⟨msg, final, len, rem, off, blkcnt⟩ := runItems_eq_iff.mp same
  have hrun := hs.running hps.busy
  refine inv_of_running legal (by rw [msg]; exact hs.canonical) (by rw [final, rem]; exact hs.finalEmpty) hpt.busy
    (runInv_of_block hpt (by rw [len]; exact hrun.admitted) (by rw [off, rem, len]; exact hrun.split) ?_)
  have hplace := hrun.blockPosition_of_inBlock hps
  unfold blockPosition at hplace ⊢
  rwa [final, off, rem, len, blkcnt]

/-- The same where the next control word is that of `advance`. -/
theorem Inv.advance {s u : State} {p p' : PhaseCode} {k k' : Index} {last : Nat} (hs : Inv s) (hps : InBlock s.phase)
    (hp : InBlock p) (hp' : InBlock p') (same : runItems u = runItems s)
    (legal : legalPc (advance p k last p' k' u).phase (advance p k last p' k' u).t = true) :
    Inv (advance p k last p' k' u) := by
  refine hs.within_block hps ?_ legal ((runItems_advance ..).trans same)
  obtain ⟨-, hphase, -⟩ | ⟨-, hphase, -⟩ := advance_pc p k last p' k' u <;> rw [hphase]
  · exact hp
  · exact hp'

/-! ### The invariant, by what an instruction does -/

/-- `PAD`: the block it pads is the next one of the message (`40_padding.md` R128). -/
theorem Inv.padded {s : State} (hs : Inv s) (hp : s.phase = phasePad) : Inv (padded s) := by
  have hrun := hs.running (busy_of_phase hp rfl)
  have hadmitted := hrun.admitted
  have hsplit := hrun.split
  obtain ⟨hfinal, hplace⟩ := hrun.padPosition_of_phase hp
  obtain ⟨hrem, hoff, hlast⟩ := padded_toNat (s := s) (by omega)
  have hblock : InBlock (Machine.padded s).phase := by rw [padded_phase]; decide
  refine inv_of_running (by rw [padded_phase, padded_t]; rfl) (by rw [padded_msg]; exact hs.canonical) (fun hf => ?_)
    hblock.busy (runInv_of_block hblock (by rwa [padded_len]) (by rwa [hoff, padded_len]) ?_)
  · have := of_decide_eq_true (hlast.symm.trans hf)
    omega
  · simp only [blockPosition, hlast, padded_len, padded_blkcnt, blocksNeeded, decide_eq_true_iff]
    split <;> omega

/-- `ADDH` counts a block of the message, so the count stays far below the wrap. -/
theorem blkcnt_lt_of_blockPosition {s : State} (hsplit : s.off.toNat + s.rem.toNat = s.len.toNat)
    (hplace : blockPosition s) : s.blkcnt.toNat + 1 ≤ blocksNeeded s.len.toNat := by
  unfold blockPosition at hplace
  unfold blocksNeeded at hplace ⊢
  split at hplace <;> omega

/-- `ADDH`: a final block ends the run, any other goes back to `PAD` with the block counted. -/
theorem Inv.addh {s : State} (hs : Inv s) (hp : InBlock s.phase) :
    Inv (setPc (if s.finalFlag then phaseDone else phasePad) 0 (setHash (addedHash s) (countBlock s))) := by
  have hrun := hs.running hp.busy
  have hadmitted := hrun.admitted
  have hsplit := hrun.split
  have hplace := hrun.blockPosition_of_inBlock hp
  have hcount := blkcnt_lt_of_blockPosition hsplit hplace
  have hnext : (s.blkcnt + 1).toNat = s.blkcnt.toNat + 1 := by
    unfold blocksNeeded at hcount
    exact BitVec.toNat_add_of_lt (y := 1) (show s.blkcnt.toNat + 1 < 2 ^ 32 by omega)
  cases hf : s.finalFlag with
  | true =>
    exact
      { legal := rfl
        canonical := hs.canonical
        finalEmpty := fun _ => hs.finalEmpty hf
        running := nofun
        doneFinal := fun _ => hf
        stoppedClear := fun hstop => absurd hstop (by decide : ¬ (phaseDone = phaseIdle ∨ phaseDone = phaseFail)) }
  | false =>
    refine inv_of_running rfl hs.canonical hs.finalEmpty rfl (runInv_of_pad rfl hadmitted hsplit ⟨hf, ?_⟩)
    rw [blockPosition, hf, if_neg Bool.false_ne_true] at hplace
    simp only [setPc_off, setPc_blkcnt, setPc_rem, setPc_len, setHash_off, setHash_blkcnt, setHash_rem, setHash_len,
      countBlock_off, countBlock_blkcnt, countBlock_rem, countBlock_len, hnext]
    omega

/-- A refused `START` leaves FAIL with nothing counted (`60_exceptions.md` R203). -/
theorem Inv.startRefused {s : State} (hs : Inv s) : Inv (raiseLengthExceeded (acceptStart s)) where
  legal := rfl
  canonical := hs.canonical
  finalEmpty := nofun
  running := nofun
  doneFinal := nofun
  stoppedClear _ := ⟨rfl, rfl⟩

/-- A `START` begins with nothing copied and nothing counted (`43_sequencer_and_host.md` R171). -/
theorem Inv.startRun {s : State} (hs : Inv s) (admitted : lengthExceeded s.len = false) :
    Inv (beginRun (acceptStart s)) := by
  have hle : s.len.toNat ≤ 536870911 := Nat.le_of_not_lt (of_decide_eq_false admitted)
  exact inv_of_running rfl hs.canonical nofun rfl
    (runInv_of_pad rfl hle (Nat.zero_add s.len.toNat) ⟨rfl, .inl rfl⟩)

/-- Off a run `LEN` is not spoken of. -/
theorem Inv.setLen {s : State} (hs : Inv s) (idle : busy s = false) (v : Word) : Inv (setLen v s) where
  legal := hs.legal
  canonical := hs.canonical
  finalEmpty := hs.finalEmpty
  running hb := absurd (hb.symm.trans idle) (by decide)
  doneFinal := hs.doneFinal
  stoppedClear := hs.stoppedClear

/-- The phase of a micro-operation's word, by its encoding. -/
theorem phase_of_encode {s : State} {i : Instr} {p : PhaseCode} {k : Index} (h : encode i = .control (controlWord s))
    (hi : encode i = .control (mkControlWord p k)) : s.phase = p := by
  rw [hi, controlWord] at h
  injection h with h
  rw [← cwPhase_mk s.phase s.t, ← h, cwPhase_mk]

/-- The engine's turn keeps the invariant: the control word says where in the run the micro-operation stands. -/
theorem Inv.engine {s t : State} {i : Instr} (hs : Inv s) (h : Effect s i t)
    (hword : encode i = .control (controlWord s)) : Inv t := by
  have legal := h.keeps_legalPc hs.legal
  have at_phase {p : PhaseCode} {k : Index} (hi : encode i = .control (mkControlWord p k)) : s.phase = p :=
    phase_of_encode hword hi
  cases h with
  | unchanged => exact hs
  | pad => exact hs.padded (at_phase rfl)
  | ldw => exact hs.advance (by rw [at_phase rfl]; decide) (by decide) (by decide) rfl legal
  | exp => exact hs.advance (by rw [at_phase rfl]; decide) (by decide) (by decide) rfl legal
  | seed =>
    exact hs.within_block (by rw [at_phase rfl]; decide) (by decide : InBlock phaseRnd) legal rfl
  | round f c variant =>
    have hrnd : s.phase = phaseRnd := by obtain rfl | rfl | rfl | rfl := variant <;> exact at_phase rfl
    rw [roundUpdate_eq] at legal ⊢
    exact hs.advance (by rw [hrnd]; decide) (by decide) (by decide) rfl legal
  | addh => exact hs.addh (by rw [at_phase rfl]; decide)
  | startRefused | startRun | wrLen => cases hword
  | reply | replyFree => exact hs.congr rfl rfl rfl

/-- The host's turn keeps the invariant. -/
theorem Inv.host {s t : State} {i : Instr} (hs : Inv s) (h : Effect s i t) (hi : i.isEngine = false) : Inv t := by
  cases h with
  | unchanged => exact hs
  | pad | ldw | exp | seed | addh => cases hi
  | round f c variant => obtain rfl | rfl | rfl | rfl := variant <;> cases hi
  | startRefused => exact hs.startRefused
  | startRun _ admitted => exact hs.startRun admitted
  | wrLen v idle => exact hs.setLen idle v
  | reply | replyFree => exact hs.congr rfl rfl rfl

/-- The owner's turn writes inside the message space. -/
theorem Inv.setMessage {s : State} (hs : Inv s) (offset : BitVec 29) (byte : Byte) :
    Inv (setMessage offset.toNat byte s) where
  legal := hs.legal
  canonical := Memory.wf_write s.msg byte offset.isLt hs.canonical
  finalEmpty := hs.finalEmpty
  running hb := ⟨(hs.running hb).admitted, (hs.running hb).split, (hs.running hb).place⟩
  doneFinal := hs.doneFinal
  stoppedClear := hs.stoppedClear

/-- Reset meets every clause with any message in canonical form. -/
theorem inv_of_reset_values {t : State} (phase : t.phase = phaseIdle) (index : t.t = 0) (canonical : t.msg.wf = true)
    (final : t.finalFlag = false) (blkcnt : t.blkcnt = 0) : Inv t := by
  obtain ⟨hbusy, hdone, -⟩ := flags_clear_of_phase_idle phase
  exact
    { legal := by rw [phase, index]; rfl
      canonical := canonical
      finalEmpty := by rw [final]; nofun
      running := by rw [hbusy]; nofun
      doneFinal := by rw [hdone]; nofun
      stoppedClear := fun _ => ⟨blkcnt, final⟩ }

/-- Settles O53: the state after reset holds the values the clauses ask for in IDLE. -/
theorem resetMeetsInvariant : Obligations.ResetMeetsInvariant :=
  inv_of_reset_values reset_phase reset_t reset_msg_wf reset_finalFlag reset_blkcnt

/-- Settles O54: each kind of turn keeps the invariant, and the using up of the turn is not spoken of. -/
theorem stepKeepsInvariant : Obligations.StepKeepsInvariant := by
  intro s t hs h
  have htake : Inv (takeTurn s) := hs.congr rfl rfl rfl
  cases step_effect h with
  | held => exact htake
  | engine _ _ decoded run => exact htake.engine (exec_effect run) (encode_of_decodeControl decoded).2
  | @host tw _ _ _ run => exact htake.host (exec_effect run) (decodeHost_isEngine tw)
  | message => exact htake.setMessage _ _
  | @reset asserted =>
    cases asserted with
    | true => exact inv_of_reset_values rfl rfl hs.canonical rfl rfl
    | false => exact htake.congr rfl rfl rfl

end Sys2Proof.Safety
end

section
/-! What follows from the invariant in one state: the offsets `PAD` reads (`20_memory.md` R63) and the spec's own list
(`10_state.md` R36). -/

namespace Sys2Proof.Safety

open Sys2Proof Sys2Proof.Machine

theorem padCount_le (r : Word) : padCount r ≤ r.toNat := by
  unfold padCount
  split
  · assumption
  · exact Nat.le_refl _

theorem mem_padOffsets {s : State} {off : Nat} :
    off ∈ padOffsets s ↔ ∃ i, i < padCount s.rem ∧ s.off.toNat + i = off := by
  simp [padOffsets]

/-- Settles O20: `PAD` reads at most `REM` bytes from `OFF` on, and `OFF + REM = LEN` lies inside the message space. -/
theorem padReadsInsideMessage : Obligations.PadReadsInsideMessage := by
  intro s hs hp
  have hrun := hs.running (busy_of_phase hp rfl)
  have hadmitted := hrun.admitted
  have hsplit := hrun.split
  have hcount := padCount_le s.rem
  refine ⟨fun off hoff => ?_, _, execPad_next.mpr ⟨(padReadable_iff s).mpr fun i hi => ?_, rfl⟩⟩
  · obtain ⟨i, hi, rfl⟩ := mem_padOffsets.mp hoff
    omega
  · omega

/-- A legal control word has an index below 80 and one of the nine phases (R36 item 4). -/
theorem bounds_of_legalPc {p : PhaseCode} {t : Index} (h : legalPc p t = true) : t.toNat < 80 ∧ p.toNat ≤ 8 := by
  have hp : p.toNat ≤ 8 := by
    by_contra hgt
    rw [legalPc_of_reservedPhase (by omega)] at h
    contradiction
  refine ⟨?_, hp⟩
  unfold legalPc at h
  split at h <;> simp at h <;> omega

/-- The block being padded is one of those the message needs (R36 item 6). -/
theorem blkcnt_lt_of_padPosition {s : State} (hsplit : s.off.toNat + s.rem.toNat = s.len.toNat)
    (hplace : padPosition s) : s.blkcnt.toNat + 1 ≤ blocksNeeded s.len.toNat := by
  obtain ⟨-, hplace⟩ := hplace
  unfold blocksNeeded
  omega

/-- The phases of `BUSY` are `PAD` and those of a block. -/
theorem pad_or_inBlock_of_busy {s : State} (hb : busy s = true) : s.phase = phasePad ∨ InBlock s.phase := by
  obtain ⟨hge, hle⟩ := busy_iff.mp hb
  by_cases hp : s.phase.toNat = 1
  · exact .inl (BitVec.eq_of_toNat_eq hp)
  · exact .inr ⟨by omega, hle⟩

theorem Inv.blkcnt_lt {s : State} (hs : Inv s) (hb : busy s = true) :
    s.blkcnt.toNat + 1 ≤ blocksNeeded s.len.toNat := by
  have hrun := hs.running hb
  obtain hp | hp := pad_or_inBlock_of_busy hb
  · exact blkcnt_lt_of_padPosition hrun.split (hrun.padPosition_of_phase hp)
  · exact blkcnt_lt_of_blockPosition hrun.split (hrun.blockPosition_of_inBlock hp)

/-- Settles O55: items 1 and 3 are the split of `LEN` at `PAD`, the others the legal control word, the clause on `FINAL`
and the position of the run. -/
theorem invariantGivesSpecInvariants : Obligations.InvariantGivesSpecInvariants := by
  intro s hs
  obtain ⟨hindex, hphase⟩ := bounds_of_legalPc hs.legal
  have pad_run (hp : s.phase = phasePad) : RunInv s := hs.running (busy_of_phase hp rfl)
  refine ⟨fun hp => ?item1, fun hp hr => ?item3, hindex, hphase,
    fun hf => BitVec.eq_of_toNat_eq (hs.finalEmpty hf), hs.blkcnt_lt⟩
  case item1 =>
    have hsplit := (pad_run hp).split
    obtain ⟨-, hplace⟩ := (pad_run hp).padPosition_of_phase hp
    exact ⟨hsplit, (pad_run hp).admitted, by omega⟩
  case item3 =>
    have hsplit := (pad_run hp).split
    omega

end Sys2Proof.Safety
end

section
/-! The access matrix (`10_state.md` section 11) and what it gives: a run that the host cannot disturb, `REM` that only
falls, a digest that stays. -/

namespace Sys2Proof.Machine

open Sys2Proof Sys2Proof.Safety

/-- Settles O45: each effect writes the fields its row allows and keeps the others. -/
theorem accessMatrix : Obligations.AccessMatrix := by
  intro i s t h
  cases exec_effect h with
  | unchanged => simp
  | pad => simp [Instr.isEngine]
  | ldw | exp => simp [Instr.isEngine]
  | seed => simp [Instr.isEngine]
  | @round _ k f c variant =>
    have hengine : i.isEngine = true := by obtain rfl | rfl | rfl | rfl := variant <;> rfl
    have hround : ∃ k, i = .rndCh k ∨ i = .rndP1 k ∨ i = .rndMaj k ∨ i = .rndP2 k := ⟨k, variant⟩
    simp [roundUpdate_eq, hengine, hround]
  | addh => simp [Instr.isEngine]
  | startRefused | startRun => simp [Instr.isEngine]
  | wrLen v idle => simp [idle]
  | reply v host | replyFree host => simp [host]

/-- A host transaction always answers a next state. -/
theorem exec_host_next {i : Instr} (hi : i.isEngine = false) (s : State) : ∃ t, exec i s = .next t := by
  cases i with
  | hltIdle | pad | ldw | exp | seed | rndCh | rndP1 | rndMaj | rndP2 | addh | hltDone | hltFail => cases hi
  | start =>
    obtain ⟨-, h⟩ | ⟨-, -, h⟩ | ⟨-, -, h⟩ := execStart_cases s
    · exact ⟨_, h⟩
    · exact ⟨_, h⟩
    · exact ⟨_, h⟩
  | wrLen v =>
    obtain ⟨-, h⟩ | ⟨-, h⟩ := execWrLen_cases v s
    · exact ⟨_, h⟩
    · exact ⟨_, h⟩
  | cnop | wrStatus | wrBlkcnt | wrH0 | wrH1 | wrH2 | wrH3 | wrH4 | wrRsvd | rdCtrl | rdStatus | rdLen | rdBlkcnt
  | rdH0 | rdH1 | rdH2 | rdH3 | rdH4 | rdRsvd => exact ⟨_, rfl⟩

/-- While `BUSY` a host transaction changes at most what the host has been told. -/
theorem Effect.engineView_of_busy {i : Instr} {s t : State} (h : Effect s i t) (hi : i.isEngine = false)
    (hb : busy s = true) : engineView t = engineView s := by
  cases h with
  | unchanged | reply | replyFree => rfl
  | pad | ldw | exp | seed | addh => cases hi
  | round f c variant => obtain rfl | rfl | rfl | rfl := variant <;> cases hi
  | startRefused idle | startRun idle | wrLen _ idle => rw [hb] at idle; contradiction

theorem exec_decodeHost_of_busy (tw : HostWord) {s : State} (hb : busy s = true) :
    ∃ t, exec (decodeHost tw) s = .next t ∧ engineView t = engineView s := by
  obtain ⟨t, ht⟩ := exec_host_next (decodeHost_isEngine tw) s
  exact ⟨t, ht, (exec_effect ht).engineView_of_busy (decodeHost_isEngine tw) hb⟩

/-- Settles O46: `START` and `WR.LEN`, the only commands with an effect, are dropped while `BUSY`. -/
theorem hostCannotDisturbRun : Obligations.HostCannotDisturbRun :=
  fun _ tw => exec_decodeHost_of_busy tw

theorem padded_rem_le (s : State) : (padded s).rem.toNat ≤ s.rem.toNat := by
  obtain ⟨hr, hp⟩ | ⟨-, -, hp⟩ | ⟨-, hp⟩ := padded_cases s <;> rw [hp, setPadded_rem]
  · have hrem : (sub32 s.rem 64).toNat = s.rem.toNat - 64 := BitVec.toNat_sub_of_le (y := 64) hr
    omega
  · exact Nat.zero_le _
  · exact Nat.zero_le _

/-- Settles O47: beside `START` only `PAD` writes `REM`, and it takes off what it copies. -/
theorem remNeverIncreases : Obligations.RemNeverIncreases := by
  intro i s t hi h
  obtain ⟨-, -, -, -, -, hrem, -⟩ := accessMatrix i s t h
  by_cases hsame : t.rem = s.rem
  · rw [hsame]
  · obtain rfl | rfl := hrem hsame
    · contradiction
    · obtain ⟨-, rfl⟩ := execPad_next.mp h
      exact padded_rem_le s

/-- In DONE the only control word that is not reserved is that of `HLT.DONE` (R181). -/
theorem decodeControl_of_done {s : State} {i : Instr} (hs : done s = true)
    (hd : decodeControl (controlWord s) = .ok i) : i = .hltDone := by
  rw [decodeControl_eq_ok, controlWord, done_iff.mp hs, decodeControl?_done] at hd
  obtain ⟨-, hi⟩ := Option.ite_none_right_eq_some.mp hd
  cases hi
  rfl

theorem done_congr {s t : State} (h : t.phase = s.phase) : done t = done s := by
  rw [done, done, h]

/-- A host transaction other than `START` keeps the control word, the digest and the count. -/
theorem exec_decodeHost_keeps {tw : HostWord} {s t : State} (hstart : decodeHost tw ≠ .start)
    (h : exec (decodeHost tw) s = .next t) : t.phase = s.phase ∧ t.h = s.h ∧ t.blkcnt = s.blkcnt := by
  have hhost := decodeHost_isEngine tw
  have haddh : decodeHost tw ≠ .addh := fun hi => by rw [hi] at hhost; contradiction
  obtain ⟨hh, -, -, -, -, -, -, -, hblkcnt, -⟩ := accessMatrix _ _ _ h
  refine ⟨exec_decodeHost_phase hstart h, by_contra fun hne => ?_, by_contra fun hne => ?_⟩
  · exact (hh hne).elim hstart haddh
  · exact (hblkcnt hne).elim hstart haddh

/-- Settles O51: in DONE the engine only halts, and of the host's transactions only `START` writes the digest. -/
theorem digestStableWhileDone : Obligations.DigestStableWhileDone := by
  intro s t hs h
  cases step_effect h with
  | held | message => exact .inl ⟨hs, rfl, rfl⟩
  | engine _ _ decoded run =>
    cases decodeControl_of_done hs decoded
    cases run
    exact .inl ⟨hs, rfl, rfl⟩
  | @host tw _ released turn run =>
    by_cases hstart : decodeHost tw = .start
    · exact .inr (.inl ⟨released, tw, turn, hstart⟩)
    · obtain ⟨hphase, hh, hblkcnt⟩ := exec_decodeHost_keeps hstart run
      exact .inl ⟨(done_congr hphase).trans hs, hh, hblkcnt⟩
  | @reset asserted turn =>
    cases asserted with
    | true => exact .inr (.inr turn)
    | false => exact .inl ⟨hs, rfl, rfl⟩

end Sys2Proof.Machine
end

section
/-! The next-state table of the sequencer (`43_sequencer_and_host.md` R170). -/

namespace Sys2Proof.Machine

open Sys2Proof

/-- The next control word of `advance`, in numbers. -/
theorem advance_pc_table {p p' : PhaseCode} {k k' : Index} {last : Nat} (hlast : last ≤ 79) (s : State) :
    (k.toNat < last → (advance p k last p' k' s).phase = p ∧ (advance p k last p' k' s).t.toNat = k.toNat + 1) ∧
      (k.toNat = last → (advance p k last p' k' s).phase = p' ∧ (advance p k last p' k' s).t = k') := by
  obtain ⟨hlt, hp, ht⟩ | ⟨hge, hp, ht⟩ := advance_pc p k last p' k' s
  · exact ⟨fun _ => ⟨hp, by rw [ht, toNat_succ_of_lt (by omega)]⟩, fun h => by omega⟩
  · exact ⟨fun h => by omega, fun _ => ⟨hp, ht⟩⟩

theorem exec_round {i : Instr} {k : Index} {s u : State} (hi : i = .rndCh k ∨ i = .rndP1 k ∨ i = .rndMaj k ∨ i = .rndP2 k)
    (h : exec i s = .next u) : ∃ f c, u = roundUpdate f c k s := by
  obtain rfl | rfl | rfl | rfl := hi
  · exact ⟨_, _, (execRndCh_next.mp h).2⟩
  · exact ⟨_, _, (execRndP1_next.mp h).2⟩
  · exact ⟨_, _, (execRndMaj_next.mp h).2⟩
  · exact ⟨_, _, (execRndP2_next.mp h).2⟩

/-- Settles O34: `LDW`, `EXP` and `RND` go on by `advance`, `ADDH` by `FINAL`, `START` by its length test. -/
theorem nextControlWordTable : Obligations.NextControlWordTable := by
  intro s u
  have same (h : (.next s : Result) = .next u) : u = s := by cases h; rfl
  refine ⟨same, same, same, fun h => ?pad, fun k h => ?ldw, fun k h => ?exp, fun h => ?seed, fun i k hi h => ?round,
    fun h => ?addh, fun h hb => ?start, fun h => ?reset⟩
  case pad =>
    obtain ⟨-, rfl⟩ := execPad_next.mp h
    exact ⟨padded_phase s, padded_t s⟩
  case ldw =>
    obtain ⟨-, rfl⟩ := execLdw_next.mp h
    exact advance_pc_table (by decide) _
  case exp =>
    obtain ⟨-, rfl⟩ := execExp_next.mp h
    exact advance_pc_table (by decide) _
  case seed => cases h; exact ⟨rfl, rfl⟩
  case round =>
    obtain ⟨f, c, rfl⟩ := exec_round hi h
    exact advance_pc_table (by decide) _
  case addh =>
    cases h
    exact ⟨fun hf => ⟨by rw [setPc_phase, hf]; rfl, rfl⟩, fun hf => ⟨by rw [setPc_phase, hf]; rfl, rfl⟩⟩
  case start =>
    obtain hl | hl := Nat.lt_or_ge 0x1FFFFFFF s.len.toNat
    · cases (exec_start_refused hb hl).symm.trans h
      exact .inr ⟨rfl, rfl⟩
    · cases (exec_start_run hb hl).symm.trans h
      exact .inl ⟨rfl, rfl⟩
  case reset => cases h; exact ⟨rfl, rfl⟩

end Sys2Proof.Machine
end

section
/-! The message memory as a map (`20_memory.md` sections 1 and 6): a byte reads as last written, a run's bytes stay, and the
canonical list is determined by what it reads as. -/

namespace Sys2Proof.Machine

open Sys2Proof

/-! ### Writes of the message's owner -/

theorem messageByte_congr {m m' : Memory} {off : Nat} (h : m'.read off = m.read off) :
    messageByte m' off = messageByte m off := by
  unfold messageByte
  rw [h]

theorem messageByte_of_read {m : Memory} {off : Nat} {v : Byte} (h : m.read off = some v) : messageByte m off = v := by
  unfold messageByte
  rw [h]

theorem messageByte_write (m : Memory) (off off' : Nat) (v : Byte) :
    messageByte (m.write off v) off' = if off' = off then v else messageByte m off' := by
  split
  · subst off'
    exact messageByte_of_read (m.read_write_same off v)
  · exact messageByte_congr (m.read_write_other v ‹_›)

theorem step_message {s : State} {offset : BitVec 29} {byte : Byte} {rest : List Turn}
    (h : s.agenda = .message offset byte :: rest) : step s = messageTurn offset byte (takeTurn s) := by
  have hp : present s = .message offset byte := by simp [present, nextTurn, h]
  rw [step, hp]

theorem takeTurn_eq {s : State} {x : Turn} {rest : List Turn} (h : s.agenda = x :: rest) :
    takeTurn s = { s with agenda := rest } := by
  rw [takeTurn, h, List.tail_cons]

/-- A message turn goes through unless it would change a byte of a running message. -/
theorem messageTurn_written {offset : BitVec 29} {byte : Byte} {s : State}
    (h : busy s = false ∨ s.len.toNat ≤ offset.toNat ∨ s.msg.read offset.toNat = some byte) :
    messageTurn offset byte s = .next (setMessage offset.toNat byte s) := by
  refine if_neg ?_
  obtain h | h | h := h
  · simp [h]
  · simp [Nat.not_lt.mpr h]
  · simp [h]

theorem messageTurn_refused {offset : BitVec 29} {byte : Byte} {s : State} (hb : busy s = true)
    (hlt : offset.toNat < s.len.toNat) (hne : s.msg.read offset.toNat ≠ some byte) :
    messageTurn offset byte s = .refused (.messageChangedDuringRun offset) :=
  if_pos (by simp [hb, hlt, hne])

/-- Settles O49: the list is a map under `write`, and a turn that goes through is one write. -/
theorem messageWriteThenRead : Obligations.MessageWriteThenRead := by
  refine ⟨fun m off off' v => ⟨messageByte_write m off off' v, fun hwf hoff => m.wf_write v hoff hwf⟩,
    fun s offset byte rest h hthrough => ?_⟩
  rw [step_message h, messageTurn_written (s := takeTurn s) hthrough, takeTurn_eq h]
  rfl

/-! ### A running message -/

/-- Putting the byte that is there already changes no read. -/
theorem messageByte_write_kept {m : Memory} {off off' : Nat} {v : Byte} (h : off' = off → m.read off = some v) :
    messageByte (m.write off v) off' = messageByte m off' := by
  rw [messageByte_write]
  split
  · subst off'
    exact (messageByte_of_read (h rfl)).symm
  · rfl

theorem resetTurn_msg (asserted : Bool) (s : State) : (resetTurn asserted s).msg = s.msg := by
  cases asserted <;> rfl

/-- Settles O48: instructions and reset never write the message, and the owner's turn only puts the byte already there. -/
theorem messageConstantDuringRun : Obligations.MessageConstantDuringRun := by
  refine ⟨fun s t off hs h hoff => ?kept, fun s offset byte rest hs h hoff hne => ?refused⟩
  case kept =>
    cases step_effect h with
    | held => rfl
    | engine _ _ _ run => rw [(exec_effect run).msg_eq, takeTurn_msg]
    | host _ _ run => rw [(exec_effect run).msg_eq, takeTurn_msg]
    | message kept =>
      rw [setMessage_msg, takeTurn_msg]
      exact messageByte_write_kept fun heq => kept hs (heq ▸ hoff)
    | reset => rw [resetTurn_msg, takeTurn_msg]
  case refused =>
    rw [step_message h]
    exact messageTurn_refused hs hoff hne

/-! ### The canonical list -/

theorem Memory.risesAbove_cons {lo x : Nat} {v : Byte} {m : Memory} (h : Memory.risesAbove lo ((x, v) :: m) = true) :
    lo < x ∧ m.risesAbove x = true := by
  simp only [Memory.risesAbove, Bool.and_eq_true, decide_eq_true_eq] at h
  obtain ⟨⟨hlo, -⟩, hm⟩ := h
  exact ⟨hlo, hm⟩

/-- A list that rises above `lo` holds no byte at `lo` or below. -/
theorem Memory.read_of_risesAbove {lo off : Nat} {m : Memory} (h : m.risesAbove lo = true) (hle : off ≤ lo) :
    m.read off = none := by
  induction m generalizing lo with
  | nil => rfl
  | cons c m ih =>
    obtain ⟨x, v⟩ := c
    obtain ⟨hlo, hm⟩ := Memory.risesAbove_cons h
    rw [Memory.read_cons, if_neg (by omega)]
    exact ih hm (by omega)

theorem Memory.read_head (x : Nat) (v : Byte) (m : Memory) : Memory.read ((x, v) :: m) x = some v := if_pos rfl

/-- In a rising list the head is the least offset that reads as placed. -/
theorem Memory.read_below_head {x y : Nat} {u : Byte} {m : Memory} (hm : m.risesAbove x = true) (hlt : y < x) :
    Memory.read ((x, u) :: m) y = none := by
  rw [Memory.read_cons, if_neg (by omega)]
  exact Memory.read_of_risesAbove hm hlt.le

/-- Two rising lists that read alike have the same head, and their tails read alike. -/
theorem Memory.heads_eq {c c' : Host.Cell} {m m' : Memory} (hm : m.risesAbove c.1 = true)
    (hm' : m'.risesAbove c'.1 = true) (h : ∀ off, Memory.read (c :: m) off = Memory.read (c' :: m') off) :
    c = c' ∧ ∀ off, m.read off = m'.read off := by
  obtain ⟨x, u⟩ := c
  obtain ⟨y, v⟩ := c'
  have hxy : x = y := by
    obtain hlt | heq | hgt := Nat.lt_trichotomy x y
    · have hx := h x
      rw [Memory.read_head, Memory.read_below_head hm' hlt] at hx
      contradiction
    · exact heq
    · have hy := h y
      rw [Memory.read_head, Memory.read_below_head hm hgt] at hy
      contradiction
  subst hxy
  have huv := h x
  rw [Memory.read_head, Memory.read_head, Option.some_inj] at huv
  refine ⟨by rw [huv], fun off => ?_⟩
  obtain hlt | hle := Nat.lt_or_ge x off
  · have hoff := h off
    rwa [Memory.read_cons, Memory.read_cons, if_neg (by omega), if_neg (by omega)] at hoff
  · rw [Memory.read_of_risesAbove hm hle, Memory.read_of_risesAbove hm' hle]

/-- A list with a head does not read as the empty one. -/
theorem Memory.not_reads_empty {c : Host.Cell} {m : Memory}
    (h : ∀ off, Memory.read (c :: m) off = Memory.read [] off) : False := by
  have hx := h c.1
  rw [Memory.read_head] at hx
  contradiction

theorem Memory.risesAbove_of_wf {c : Host.Cell} {m : Memory} (h : Memory.wf (c :: m) = true) :
    m.risesAbove c.1 = true := by
  rw [Memory.wf, Bool.and_eq_true] at h
  exact h.2

/-- The canonical form is inherited by the tail. -/
theorem Memory.wf_tail {c : Host.Cell} {m : Memory} (h : Memory.wf (c :: m) = true) : m.wf = true := by
  have hrise := Memory.risesAbove_of_wf h
  cases m with
  | nil => rfl
  | cons d m =>
    simp only [Memory.risesAbove, Bool.and_eq_true] at hrise
    obtain ⟨⟨-, hspace⟩, hm⟩ := hrise
    rw [Memory.wf, hspace, hm]
    rfl

/-- Settles O50: the heads of two canonical lists that read alike are the least placed offset of both, and so on down the
tails. -/
theorem canonicalMessageIsUnique : Obligations.CanonicalMessageIsUnique := by
  intro m
  induction m with
  | nil =>
    intro m' _ _ h
    cases m' with
    | nil => rfl
    | cons c' m' => exact (Memory.not_reads_empty fun off => (h off).symm).elim
  | cons c m ih =>
    intro m' hm hm' h
    cases m' with
    | nil => exact (Memory.not_reads_empty h).elim
    | cons c' m' =>
      obtain ⟨hhead, htail⟩ := Memory.heads_eq (Memory.risesAbove_of_wf hm) (Memory.risesAbove_of_wf hm') h
      rw [hhead, ih m' (Memory.wf_tail hm) (Memory.wf_tail hm') htail]

end Sys2Proof.Machine
end

section
/-! The tables and the single steps: the host words slot by slot (`30_encoding.md` R97), what a turn runs (R183), what an
asserted `rst` holds back (R230), and the stops that name their reason. -/

namespace Sys2Proof.Machine

open Sys2Proof

/-- Settles O5: each slot's row of the two decoders. -/
theorem hostWordTable : Obligations.HostWordTable := by
  intro v
  have write (idx : BitVec 4) : decodeHost (mkHostWord 1 idx v) = decodeWrite idx v := decodeHost_write idx v
  have read (idx : BitVec 4) : decodeHost (mkHostWord 0 idx v) = decodeRead idx := decodeHost_read idx v
  exact ⟨(write idxCtrl).trans (decodeWrite_ctrl v), write idxStatus, write idxLen, write idxBlkcnt, write idxH0,
    write idxH1, write idxH2, write idxH3, write idxH4,
    fun idx h => (write idx).trans (decodeWrite_reserved h v),
    read idxCtrl, read idxStatus, read idxLen, read idxBlkcnt, read idxH0, read idxH1, read idxH2, read idxH3,
    read idxH4, fun idx h => (read idx).trans (decodeRead_reserved h)⟩

/-- Settles O7: eight words, each decoded by evaluation. -/
theorem sampleWordsDecode : Obligations.SampleWordsDecode := by
  unfold Obligations.SampleWordsDecode
  decide

/-! ### What a turn runs -/

theorem nextTurn_cons {s : State} {x : Turn} {rest : List Turn} (h : s.agenda = x :: rest) : nextTurn s = x := by
  rw [nextTurn, h]
  rfl

theorem nextTurn_nil {s : State} (h : s.agenda = []) : nextTurn s = .engine := by
  rw [nextTurn, h]
  rfl

/-- Where nothing is queued no turn is used up. -/
theorem takeTurn_nil {s : State} (h : s.agenda = []) : takeTurn s = s := by
  rw [takeTurn, h, List.tail_nil, ← h]

/-- Settles O8: the engine's turn, forwards. -/
theorem engineTurnRunsControlWord : Obligations.EngineTurnRunsControlWord :=
  fun _ _ hr hn hd _ => step_engine hr hn hd

/-- Settles O9: the host's turn, forwards. -/
theorem hostTurnRunsTransaction : Obligations.HostTurnRunsTransaction := by
  intro s tw rest hr h
  rw [step_host hr (nextTurn_cons h), takeTurn_eq h]

/-! ### While `rst` is asserted (log 7) -/

theorem step_held_engine {s : State} (hr : s.rst = true) (hn : nextTurn s = .engine) : step s = .next (takeTurn s) := by
  have hp : present s = .nothing := by simp [present, hn, hr]
  rw [step, hp]

theorem step_held_host {s : State} {tw : HostWord} (hr : s.rst = true) (hn : nextTurn s = .host tw) :
    step s = .next (takeTurn s) := by
  have hp : present s = .nothing := by simp [present, hn, hr]
  rw [step, hp]

/-- Settles O10: under `rst` the turns of engine and host are only used up, and a change of its level is one update. -/
theorem assertedResetHoldsEngine : Obligations.AssertedResetHoldsEngine := by
  refine ⟨fun s hr h => ?empty, fun s rest hr h => ?engine, fun s tw rest hr h => ?host, fun s rest h => ?release,
    fun s rest h => ⟨_, step_reset h, applyReset_msg _, applyReset_replies _, ?agenda, rfl⟩⟩
  case empty => rw [step_held_engine hr (nextTurn_nil h), takeTurn_nil h]
  case engine => rw [step_held_engine hr (nextTurn_cons h), takeTurn_eq h]
  case host => rw [step_held_host hr (nextTurn_cons h), takeTurn_eq h]
  case release => rw [step_reset h, takeTurn_eq h, resetTurn_false]; rfl
  case agenda => rw [resetTurn_true, setRst_agenda, applyReset_agenda, takeTurn_agenda, h, List.tail_cons]

/-! ### The halt states -/

/-- Settles O32: a halt answers the same state, its word is the one of its phase, and `STATUS` is the flags of the phase. -/
theorem haltStatesChangeNothing : Obligations.HaltStatesChangeNothing := by
  refine ⟨fun s => ⟨rfl, rfl, rfl⟩, fun s hr h ht hp => ?step, fun s => ?status⟩
  case step =>
    have run {i : Instr} (hd : decodeControl? (controlWord s) = some i) (hi : exec i s = .next s) :
        step s = .next s := by
      rw [step_engine hr (nextTurn_nil h) (decodeControl_eq_ok.mpr hd), takeTurn_nil h, hi]
    obtain hp | hp | hp := hp
    · exact run (i := .hltIdle) (by rw [controlWord, hp, ht]; exact decodeControl?_idle 0) rfl
    · exact run (i := .hltDone) (by rw [controlWord, hp, ht]; exact decodeControl?_done 0) rfl
    · exact run (i := .hltFail) (by rw [controlWord, hp, ht]; exact decodeControl?_fail 0) rfl
  case status =>
    obtain ⟨-, -, -, hidle, -, hdone, hfail, -⟩ := statusHasFourValues s
    exact ⟨hidle, hdone, hfail⟩

/-! ### The stops -/

theorem indexIn_eq_false {lo hi : Nat} {k : Index} (h : k.toNat < lo ∨ hi < k.toNat) : indexIn lo hi k = false := by
  rw [← Bool.not_eq_true, indexIn_iff]
  omega

/-- Settles O33: each of the six meanings tests its range first. -/
theorem illFormedIndexFaults : Obligations.IllFormedIndexFaults := by
  intro t s
  have stops {lo hi : Nat} {x y : Result} (h : t.toNat < lo ∨ hi < t.toNat) :
      (if indexIn lo hi t then x else y) = y := by rw [indexIn_eq_false h]; rfl
  exact ⟨fun h => stops (.inr h), stops, fun h => stops (.inr h), stops, stops, stops⟩

/-- Settles O19: the offset is one of those `PAD` would read, so not all of them exist. -/
theorem padFaultsOutsideMessageSpace : Obligations.PadFaultsOutsideMessageSpace := by
  intro s i hi hr hoff
  have hcount : i < padCount s.rem := by unfold padCount; split <;> omega
  have hread : ¬ padReadable s = true := fun h => by
    have := (padReadable_iff s).mp h i hcount
    omega
  exact if_neg hread

/-! ### What `PAD` and `START` forget -/

/-- What a `PAD` writes is computed without the old block. -/
theorem padded_blk_irrelevant (s : State) (old : Vector Byte 64) : padded { s with blk := old } = padded s := by
  unfold padded
  rfl

/-- Settles O18: neither the reads nor the new block depend on the old one. -/
theorem padOverwritesWholeBlock : Obligations.PadOverwritesWholeBlock := by
  intro s t old h
  obtain ⟨hr, rfl⟩ := execPad_next.mp h
  refine ⟨execPad_next.mpr ⟨hr, (padded_blk_irrelevant s old).symm⟩, ?_⟩
  obtain ⟨-, hp⟩ | ⟨-, -, hp⟩ | ⟨-, hp⟩ := padded_cases s <;> rw [hp] <;> rfl

/-- Settles O52: each of the seven items is a constant or `LEN`. -/
theorem startForgetsEarlierRun : Obligations.StartForgetsEarlierRun := by
  intro s s' t t' hb hb' hlen hl h h'
  cases (exec_start_run hb hl).symm.trans h
  cases (exec_start_run hb' (hlen ▸ hl)).symm.trans h'
  exact ⟨rfl, hlen, rfl, rfl, rfl, rfl, rfl⟩

end Sys2Proof.Machine
end

section
/-! The word arithmetic bit by bit: the round functions (`42_compression.md` R152 to R155) and the rotation (`00_scope.md`
R13). -/

namespace Sys2Proof.Machine

open Sys2Proof

theorem fCh_getLsbD (b c d : Word) {i : Nat} (hi : i < 32) :
    (fCh b c d).getLsbD i = if b.getLsbD i then c.getLsbD i else d.getLsbD i := by
  rw [fCh, BitVec.getLsbD_or, BitVec.getLsbD_and, BitVec.getLsbD_and, BitVec.getLsbD_not, decide_eq_true hi]
  cases b.getLsbD i <;> simp

theorem fP1_getLsbD (b c d : Word) (i : Nat) :
    (fP1 b c d).getLsbD i = (b.getLsbD i ^^ (c.getLsbD i ^^ d.getLsbD i)) := by
  rw [fP1, BitVec.getLsbD_xor, BitVec.getLsbD_xor, Bool.xor_assoc]

theorem fMaj_getLsbD (b c d : Word) (i : Nat) : (fMaj b c d).getLsbD i =
    (b.getLsbD i && c.getLsbD i || b.getLsbD i && d.getLsbD i || c.getLsbD i && d.getLsbD i) := by
  simp [fMaj]

/-- The majority of three bits is two of them or more. -/
theorem majority_eq (x y z : Bool) : (x && y || x && z || y && z) = decide (2 ≤ x.toNat + y.toNat + z.toNat) := by
  revert x y z
  decide

theorem fCh_eq_short (b c d : Word) : fCh b c d = d ^^^ (b &&& (c ^^^ d)) := by
  apply BitVec.eq_of_getLsbD_eq
  intro i hi
  rw [fCh_getLsbD b c d hi, BitVec.getLsbD_xor, BitVec.getLsbD_and, BitVec.getLsbD_xor]
  cases b.getLsbD i <;> cases c.getLsbD i <;> cases d.getLsbD i <;> rfl

theorem fMaj_eq_short (b c d : Word) : fMaj b c d = (b &&& c) ||| (d &&& (b ||| c)) := by
  apply BitVec.eq_of_getLsbD_eq
  intro i _
  rw [fMaj_getLsbD, BitVec.getLsbD_or, BitVec.getLsbD_and, BitVec.getLsbD_and, BitVec.getLsbD_or]
  cases b.getLsbD i <;> cases c.getLsbD i <;> cases d.getLsbD i <;> rfl

/-- Settles O29: choice, parity and majority in each bit, and the two short forms by their truth tables. -/
theorem roundFunctionsBitByBit : Obligations.RoundFunctionsBitByBit := by
  intro b c d
  refine ⟨fun i hi => ⟨fCh_getLsbD b c d hi, fP1_getLsbD b c d i, ?_⟩, fCh_eq_short b c d, fMaj_eq_short b c d, rfl⟩
  rw [fMaj_getLsbD, majority_eq]

/-- Settles O30: Lean's rotation moves the bits below `32 - n` up by `n` and the others round to the bottom. -/
theorem rotlIsCircular : Obligations.RotlIsCircular := by
  intro n x i hn hn32 hi
  rw [rotl_eq_rotateLeft hn32, BitVec.getLsbD_rotateLeft, Nat.mod_eq_of_lt hn32]
  obtain hlow | hhigh := Nat.lt_or_ge (i + n) 32
  · rw [Nat.mod_eq_of_lt hlow, decide_eq_false (by omega), decide_eq_true hlow, Nat.add_sub_cancel]
    rfl
  · have hmod : (i + n) % 32 = i + n - 32 := by omega
    rw [hmod, decide_eq_true (by omega), cond_true]
    congr 1
    omega

end Sys2Proof.Machine
end

section
/-! The opcode table against the decoder (`30_encoding.md` section 4): the rows that match a word are the one of the
mnemonic it decodes to. -/

namespace Sys2Proof

/-- The mnemonics of the rows a word belongs to. -/
def rowMnemonics (f : Fetched) : List String := (opcodeRows.filter fun row => row.covers f).map OpcodeRow.mnemonic

/-! ### Control words: a row is a phase and a set of indices -/

/-- The row is a control-word row of the phase. -/
def OpcodeRow.hasPhase (p : PhaseCode) (row : OpcodeRow) : Bool := row.width == 11 && row.pattern / 2 ^ 7 == p.toNat

/-- The index is one of the row's. -/
def OpcodeRow.hasIndex (t : Index) (row : OpcodeRow) : Bool := t.toNat &&& row.mask % 2 ^ 7 == row.pattern % 2 ^ 7

/-- The mnemonics the rows of one phase give an index. -/
def indexMnemonics (rows : List OpcodeRow) (t : Index) : List String :=
  (rows.filter (OpcodeRow.hasIndex t)).map OpcodeRow.mnemonic

theorem controlRows_mask : ∀ row ∈ opcodeRows, row.width = 11 → row.mask / 2 ^ 7 = 15 := by decide

/-- A mask that keeps the whole phase field compares the two fields apart. -/
theorem controlWord_and_eq_iff (p : PhaseCode) (t : Index) {mask pattern : Nat} (hmask : mask / 2 ^ 7 = 15) :
    (mkControlWord p t).toNat &&& mask = pattern ↔
      t.toNat &&& mask % 2 ^ 7 = pattern % 2 ^ 7 ∧ pattern / 2 ^ 7 = p.toNat := by
  have hword : (mkControlWord p t).toNat = 2 ^ 7 * p.toNat + t.toNat := by
    rw [mkControlWord, BitVec.toNat_append, Nat.shiftLeft_eq, Nat.mul_comm, ← Nat.two_pow_add_eq_or_of_lt t.isLt]
  have hdiv : ((mkControlWord p t).toNat &&& mask) / 2 ^ 7 = p.toNat := by
    rw [Nat.and_div_two_pow, hmask, hword, Nat.mul_add_div (by decide), Nat.div_eq_of_lt t.isLt, Nat.add_zero]
    exact Nat.and_two_pow_sub_one_of_lt_two_pow (n := 4) p.isLt
  have hmod : ((mkControlWord p t).toNat &&& mask) % 2 ^ 7 = t.toNat &&& mask % 2 ^ 7 := by
    rw [Nat.and_mod_two_pow, hword, Nat.mul_add_mod, Nat.mod_eq_of_lt t.isLt]
  rw [← hdiv, ← hmod]
  omega

theorem covers_control {row : OpcodeRow} (hrow : row ∈ opcodeRows) (p : PhaseCode) (t : Index) :
    row.covers (.control (mkControlWord p t)) = (row.hasIndex t && row.hasPhase p) := by
  rw [Bool.eq_iff_iff]
  simp only [OpcodeRow.covers, OpcodeRow.hasIndex, OpcodeRow.hasPhase, Bool.and_eq_true, beq_iff_eq]
  constructor
  · rintro ⟨hwidth, h⟩
    obtain ⟨hindex, hphase⟩ := (controlWord_and_eq_iff p t (controlRows_mask row hrow hwidth)).mp h
    exact ⟨hindex, hwidth, hphase⟩
  · rintro ⟨hindex, hwidth, hphase⟩
    exact ⟨hwidth, (controlWord_and_eq_iff p t (controlRows_mask row hrow hwidth)).mpr ⟨hindex, hphase⟩⟩

theorem rowMnemonics_control {p : PhaseCode} {rows : List OpcodeRow}
    (hrows : opcodeRows.filter (OpcodeRow.hasPhase p) = rows) (t : Index) :
    rowMnemonics (.control (mkControlWord p t)) = indexMnemonics rows t := by
  rw [rowMnemonics, indexMnemonics, ← hrows, List.filter_filter, List.filter_congr fun row hrow => covers_control hrow p t]

/-- A phase whose one row has the index 0 alone. -/
theorem rowMnemonics_onlyIndexZero {p : PhaseCode} {i : Instr} {c : Nat}
    (hrow : opcodeRows.filter (OpcodeRow.hasPhase p) = [⟨i.mnemonic, 11, 2 ^ 7 * c, 0x7FF⟩]) (t : Index) :
    rowMnemonics (.control (mkControlWord p t)) = ((if t = 0 then some i else none).map Instr.mnemonic).toList := by
  have hindex : OpcodeRow.hasIndex t ⟨i.mnemonic, 11, 2 ^ 7 * c, 0x7FF⟩ = decide (t.toNat = 0) := by
    have hkept : t.toNat &&& 0x7FF % 2 ^ 7 = t.toNat := Nat.and_two_pow_sub_one_of_lt_two_pow (n := 7) t.isLt
    rw [Bool.eq_iff_iff, OpcodeRow.hasIndex, beq_iff_eq, decide_eq_true_iff, Nat.mul_mod_right, hkept]
  rw [rowMnemonics_control hrow, indexMnemonics]
  by_cases ht : t = 0
  · rw [List.filter_cons_of_pos (by rw [hindex, ht]; rfl), if_pos ht]
    rfl
  · have hne : ¬ t.toNat = 0 := fun h => ht (BitVec.eq_of_toNat_eq h)
    rw [List.filter_cons_of_neg (by rw [hindex, decide_eq_false hne]; decide), if_neg ht]
    rfl

theorem indexMnemonics_ldw : ∀ t : Index, indexMnemonics [⟨"LDW", 11, 0x100, 0x7F0⟩] t =
    ((if indexIn 0 15 t then some (.ldw t) else none : Option Instr).map Instr.mnemonic).toList := by decide

theorem indexMnemonics_exp : ∀ t : Index,
    indexMnemonics [⟨"EXP", 11, 0x190, 0x7F0⟩, ⟨"EXP", 11, 0x1A0, 0x7E0⟩, ⟨"EXP", 11, 0x1C0, 0x7F0⟩] t =
      ((if indexIn 16 79 t then some (.exp t) else none : Option Instr).map Instr.mnemonic).toList := by decide

/-- The ten rows of the rounds. -/
def roundRows : List OpcodeRow := [
  ⟨"RND.CH", 11, 0x280, 0x7F0⟩, ⟨"RND.CH", 11, 0x290, 0x7FC⟩, ⟨"RND.P1", 11, 0x294, 0x7FC⟩,
  ⟨"RND.P1", 11, 0x298, 0x7F8⟩, ⟨"RND.P1", 11, 0x2A0, 0x7F8⟩, ⟨"RND.MAJ", 11, 0x2A8, 0x7F8⟩,
  ⟨"RND.MAJ", 11, 0x2B0, 0x7F8⟩, ⟨"RND.MAJ", 11, 0x2B8, 0x7FC⟩, ⟨"RND.P2", 11, 0x2BC, 0x7FC⟩,
  ⟨"RND.P2", 11, 0x2C0, 0x7F0⟩]

theorem indexMnemonics_rnd : ∀ t : Index,
    indexMnemonics roundRows t = ((decodeRound t).map Instr.mnemonic).toList := by decide

theorem rowsOf_reservedPhase : ∀ p : PhaseCode, 9 ≤ p.toNat → opcodeRows.filter (OpcodeRow.hasPhase p) = [] := by decide

/-- Phase by phase, the rows give the mnemonic the decoder gives. -/
theorem rowMnemonics_control_eq (p : PhaseCode) (t : Index) : rowMnemonics (.control (mkControlWord p t)) =
    ((decodeControl? (mkControlWord p t)).map Instr.mnemonic).toList := by
  obtain rfl | rfl | rfl | rfl | rfl | rfl | rfl | rfl | rfl | hp := phase_cases p
  · rw [decodeControl?_idle]; exact rowMnemonics_onlyIndexZero (c := 0) (by decide) t
  · rw [decodeControl?_pad]; exact rowMnemonics_onlyIndexZero (c := 1) (by decide) t
  · rw [decodeControl?_ldw]; exact (rowMnemonics_control (by decide) t).trans (indexMnemonics_ldw t)
  · rw [decodeControl?_exp]; exact (rowMnemonics_control (by decide) t).trans (indexMnemonics_exp t)
  · rw [decodeControl?_seed]; exact rowMnemonics_onlyIndexZero (c := 4) (by decide) t
  · rw [decodeControl?_rnd]; exact (rowMnemonics_control (by decide) t).trans (indexMnemonics_rnd t)
  · rw [decodeControl?_addh]; exact rowMnemonics_onlyIndexZero (c := 6) (by decide) t
  · rw [decodeControl?_done]; exact rowMnemonics_onlyIndexZero (c := 7) (by decide) t
  · rw [decodeControl?_fail]; exact rowMnemonics_onlyIndexZero (c := 8) (by decide) t
  · rw [decodeControl?_reservedPhase t hp, rowMnemonics_control (rowsOf_reservedPhase p hp)]; rfl

/-! ### Host words: no row looks at `DATA[31:1]` -/

/-- The word with the bits that no row and no decoder looks at cleared. -/
def bareHostWord (wr : BitVec 1) (idx : BitVec 4) (start : Bool) : HostWord :=
  mkHostWord wr idx ((BitVec.ofBool start).setWidth 32)

theorem hostRows_mask : ∀ row ∈ opcodeRows, row.width = 37 → 0x1F00000001 &&& row.mask = row.mask := by decide

theorem bareHostWord_eq_and (wr : BitVec 1) (idx : BitVec 4) (v : Word) :
    bareHostWord wr idx (v.getLsbD 0) = mkHostWord wr idx v &&& 0x1F00000001#37 := by
  have hmask : (0x1F00000001#37 : HostWord) = mkHostWord (BitVec.allOnes 1) (BitVec.allOnes 4) 1#32 := by decide
  rw [hmask, bareHostWord, ← BitVec.and_one_eq_setWidth_ofBool_getLsbD]
  unfold mkHostWord
  rw [BitVec.and_append, BitVec.and_append, BitVec.and_allOnes, BitVec.and_allOnes]

theorem covers_host_bare {row : OpcodeRow} (hrow : row ∈ opcodeRows) (wr : BitVec 1) (idx : BitVec 4) (v : Word) :
    row.covers (.host (mkHostWord wr idx v)) = row.covers (.host (bareHostWord wr idx (v.getLsbD 0))) := by
  by_cases hwidth : row.width = 37
  · simp only [OpcodeRow.covers]
    rw [bareHostWord_eq_and, BitVec.toNat_and, Nat.and_assoc]
    rw [show (0x1F00000001#37 : HostWord).toNat &&& row.mask = row.mask from hostRows_mask row hrow hwidth]
  · have hnot : (row.width == 37) = false := beq_eq_false_iff_ne.mpr hwidth
    simp only [OpcodeRow.covers, hnot, Bool.false_and]

theorem rowMnemonics_host_bare (wr : BitVec 1) (idx : BitVec 4) (v : Word) :
    rowMnemonics (.host (mkHostWord wr idx v)) = rowMnemonics (.host (bareHostWord wr idx (v.getLsbD 0))) := by
  rw [rowMnemonics, List.filter_congr fun row hrow => covers_host_bare hrow wr idx v, rowMnemonics]

theorem mnemonic_decodeWrite (idx : BitVec 4) {v v' : Word} (h : v.getLsbD 0 = v'.getLsbD 0) :
    (decodeWrite idx v).mnemonic = (decodeWrite idx v').mnemonic := by
  obtain rfl | rfl | rfl | rfl | rfl | rfl | rfl | rfl | rfl | hreserved := slot_cases idx
  case inl => rw [decodeWrite_ctrl, decodeWrite_ctrl, h]
  case inr.inr.inr.inr.inr.inr.inr.inr.inr =>
    rw [decodeWrite_reserved hreserved, decodeWrite_reserved hreserved]
    rfl
  all_goals rfl

theorem mnemonic_decodeHost_bare (wr : BitVec 1) (idx : BitVec 4) (v : Word) :
    (decodeHost (bareHostWord wr idx (v.getLsbD 0))).mnemonic = (decodeHost (mkHostWord wr idx v)).mnemonic := by
  have hbit : ((BitVec.ofBool (v.getLsbD 0)).setWidth 32).getLsbD 0 = v.getLsbD 0 := by simp
  unfold decodeHost bareHostWord
  rw [hwWrite_mk, hwWrite_mk, hwIdx_mk, hwIdx_mk, hwData_mk, hwData_mk]
  split
  · exact mnemonic_decodeWrite idx hbit
  · rfl

theorem rowMnemonics_bareHostWord : ∀ (wr : BitVec 1) (idx : BitVec 4) (start : Bool),
    rowMnemonics (.host (bareHostWord wr idx start)) = [(decodeHost (bareHostWord wr idx start)).mnemonic] := by decide

theorem rowMnemonics_host_eq (tw : HostWord) : rowMnemonics (.host tw) = [(decodeHost tw).mnemonic] := by
  rw [← mkHostWord_fields tw, rowMnemonics_host_bare, rowMnemonics_bareHostWord, mnemonic_decodeHost_bare]

/-! ### Both formats -/

theorem rowMnemonics_of_ok {f : Fetched} {i : Instr} (h : decode f = .ok i) : rowMnemonics f = [i.mnemonic] := by
  cases f with
  | control cw =>
    rw [← mkControlWord_fields cw, rowMnemonics_control_eq, mkControlWord_fields, decodeControl_eq_ok.mp h]
    rfl
  | host tw => cases h; exact rowMnemonics_host_eq tw

theorem decodeControl?_of_error {cw : ControlWord} {e : DecodeError} (h : decodeControl cw = .error e) :
    decodeControl? cw = none := by
  rw [Option.eq_none_iff_forall_ne_some]
  intro i hi
  rw [decodeControl_eq_ok.mpr hi] at h
  contradiction

theorem rowMnemonics_of_error {f : Fetched} {e : DecodeError} (h : decode f = .error e) : rowMnemonics f = [] := by
  cases f with
  | control cw =>
    rw [← mkControlWord_fields cw, rowMnemonics_control_eq, mkControlWord_fields, decodeControl?_of_error h]
    rfl
  | host tw => cases h

/-- Settles O6: a control word's rows are its phase's, tested on the index; a host word's depend on six bits. -/
theorem opcodeRowsPartitionWords : Obligations.OpcodeRowsPartitionWords := by
  intro f
  cases h : decode f with
  | ok i => exact rowMnemonics_of_ok h
  | error e => exact rowMnemonics_of_error h

end Sys2Proof
end

section
/-! Interleaving (`43_sequencer_and_host.md` section 4): the engine's turns see nothing of what the outside has queued and
been told, and a busy engine sees nothing of the host's turns. -/

namespace Sys2Proof.Machine

open Sys2Proof Sys2Proof.Safety

/-! ### An engine's turn sees only the engine -/

/-- The same engine and message before another outside. -/
def withOutside (agenda : List Turn) (replies : List Word) (draws : Nat) (s : State) : State :=
  { s with agenda := agenda, replies := replies, draws := draws }

section
variable (a : List Turn) (r : List Word) (d : Nat)

theorem advance_withOutside (p : PhaseCode) (k : Index) (last : Nat) (p' : PhaseCode) (k' : Index) (s : State) :
    withOutside a r d (advance p k last p' k' s) = advance p k last p' k' (withOutside a r d s) := by
  unfold advance
  split <;> rfl

theorem padded_withOutside (s : State) : withOutside a r d (padded s) = padded (withOutside a r d s) := by
  unfold padded
  rw [apply_ite (withOutside a r d), apply_ite (withOutside a r d)]
  rfl

theorem roundUpdate_withOutside (f c : Word) (k : Index) (s : State) :
    withOutside a r d (roundUpdate f c k s) = roundUpdate f c k (withOutside a r d s) :=
  advance_withOutside ..

/-- A micro-operation does the same before any outside. -/
theorem exec_withOutside {i : Instr} {s t : State} (hi : i.isEngine = true) (h : exec i s = .next t) :
    exec i (withOutside a r d s) = .next (withOutside a r d t) := by
  cases i with
  | hltIdle | hltDone | hltFail => cases h; rfl
  | pad =>
    obtain ⟨hr, rfl⟩ := execPad_next.mp h
    exact execPad_next.mpr ⟨hr, padded_withOutside a r d s⟩
  | ldw k =>
    obtain ⟨hk, rfl⟩ := execLdw_next.mp h
    exact execLdw_next.mpr ⟨hk, advance_withOutside ..⟩
  | exp k =>
    obtain ⟨hk, rfl⟩ := execExp_next.mp h
    exact execExp_next.mpr ⟨hk, advance_withOutside ..⟩
  | seed => cases h; rfl
  | rndCh k =>
    obtain ⟨hk, rfl⟩ := execRndCh_next.mp h
    exact execRndCh_next.mpr ⟨hk, roundUpdate_withOutside ..⟩
  | rndP1 k =>
    obtain ⟨hk, rfl⟩ := execRndP1_next.mp h
    exact execRndP1_next.mpr ⟨hk, roundUpdate_withOutside ..⟩
  | rndMaj k =>
    obtain ⟨hk, rfl⟩ := execRndMaj_next.mp h
    exact execRndMaj_next.mpr ⟨hk, roundUpdate_withOutside ..⟩
  | rndP2 k =>
    obtain ⟨hk, rfl⟩ := execRndP2_next.mp h
    exact execRndP2_next.mpr ⟨hk, roundUpdate_withOutside ..⟩
  | addh => cases h; rfl
  | start | cnop | wrStatus | wrLen | wrBlkcnt | wrH0 | wrH1 | wrH2 | wrH3 | wrH4 | wrRsvd | rdCtrl | rdStatus | rdLen
  | rdBlkcnt | rdH0 | rdH1 | rdH2 | rdH3 | rdH4 | rdRsvd => cases hi

end

/-- A control word decodes to a micro-operation. -/
theorem isEngine_of_decodeControl {cw : ControlWord} {i : Instr} (h : decodeControl cw = .ok i) : i.isEngine = true := by
  obtain ⟨-, henc⟩ := encode_of_decodeControl h
  cases i with
  | hltIdle | pad | ldw | exp | seed | rndCh | rndP1 | rndMaj | rndP2 | addh | hltDone | hltFail => rfl
  | start | cnop | wrStatus | wrLen | wrBlkcnt | wrH0 | wrH1 | wrH2 | wrH3 | wrH4 | wrRsvd | rdCtrl | rdStatus | rdLen
  | rdBlkcnt | rdH0 | rdH1 | rdH2 | rdH3 | rdH4 | rdRsvd => cases henc

/-- An engine's turn that answers a next state has run the instruction of the control word. -/
theorem exec_of_step_engine {s t : State} (hr : s.rst = false) (hn : nextTurn s = .engine) (h : step s = .next t) :
    ∃ i, decodeControl (controlWord s) = .ok i ∧ exec i (takeTurn s) = .next t := by
  cases hd : decodeControl (controlWord s) with
  | ok i => exact ⟨i, rfl, (step_engine hr hn hd).symm.trans h⟩
  | error e =>
    rw [step, present_engine hr hn] at h
    simp only [decode, hd] at h
    contradiction

theorem exec_keeps_rst_agenda {i : Instr} {s t : State} (h : exec i s = .next t) :
    t.rst = s.rst ∧ t.agenda = s.agenda := by
  obtain ⟨-, -, -, -, -, -, -, -, -, -, -, hrst, hagenda⟩ := accessMatrix i s t h
  exact ⟨hrst, hagenda⟩

/-! ### One turn of an interleaved run -/

/-- The engine's turn of an interleaved run is the next step of the engine alone. -/
theorem step_engine_interleaved {s v : State} {rest : List Turn} (hr : s.rst = false) (hs : s.agenda = .engine :: rest)
    (h : step (engineView s) = .next v) :
    engineView v = v ∧ ∃ t, step s = .next t ∧ engineView t = v ∧ t.rst = false ∧ t.agenda = rest := by
  obtain ⟨i, hd, hi⟩ := exec_of_step_engine (s := engineView s) hr (nextTurn_nil rfl) h
  rw [takeTurn_nil (s := engineView s) rfl] at hi
  have hengine := isEngine_of_decodeControl hd
  have halone : v = engineView v :=
    Host.Outcome.next.inj (hi.symm.trans (exec_withOutside [] [] 0 (s := engineView s) hengine hi))
  obtain ⟨hrst, -⟩ := exec_keeps_rst_agenda hi
  have ht : step s = .next (withOutside rest s.replies s.draws v) := by
    rw [step_engine hr (nextTurn_cons hs) hd, takeTurn_eq hs]
    exact exec_withOutside rest s.replies s.draws (s := engineView s) hengine hi
  exact ⟨halone.symm, _, ht, halone.symm, hrst.trans hr, rfl⟩

/-- A host's turn of an interleaved run leaves a busy engine where it was. -/
theorem step_host_interleaved {s : State} {tw : HostWord} {rest : List Turn} (hr : s.rst = false)
    (hs : s.agenda = .host tw :: rest) (hb : busy s = true) :
    ∃ t, step s = .next t ∧ engineView t = engineView s ∧ t.rst = false ∧ t.agenda = rest := by
  obtain ⟨t, ht, hview⟩ := exec_decodeHost_of_busy tw (s := takeTurn s) hb
  obtain ⟨hrst, hagenda⟩ := exec_keeps_rst_agenda ht
  rw [takeTurn_agenda, hs, List.tail_cons] at hagenda
  exact ⟨t, (step_host hr (nextTurn_cons hs)).trans ht, hview, hrst.trans hr, hagenda⟩

/-! ### The whole run -/

/-- The engine alone is busy through its first `n` steps. -/
def BusyFor (n : Nat) (s : State) : Prop := ∀ k, k ≤ n → ∃ v, Sys2Proof.core.run k s = .next v ∧ busy v = true

theorem BusyFor.busy {n : Nat} {s : State} (h : BusyFor n s) : busy s = true := by
  obtain ⟨v, hv, hb⟩ := h 0 (Nat.zero_le n)
  cases hv
  exact hb

theorem BusyFor.tail {n : Nat} {s v : State} (h : BusyFor (n + 1) s) (hv : step s = .next v) : BusyFor n v := by
  intro k hk
  obtain ⟨w, hw, hb⟩ := h (k + 1) (Nat.succ_le_succ hk)
  exact ⟨w, (run_succ k hv).symm.trans hw, hb⟩

theorem engineTurns_engine (l : List Turn) : engineTurns (.engine :: l) = engineTurns l + 1 := by
  simp [engineTurns]

theorem engineTurns_host (tw : HostWord) (l : List Turn) : engineTurns (.host tw :: l) = engineTurns l := by
  simp [engineTurns]

/-- Every host's turn of the queue is a step that the engine does not see, every engine's turn one of its own. -/
theorem interleaved_run {s u : State} {l : List Turn} (hr : s.rst = false) (hs : s.agenda = l ++ [.engine])
    (hl : ∀ x ∈ l, engineOrHost x = true) (hb : BusyFor (engineTurns l) (engineView s))
    (hu : Sys2Proof.core.run (engineTurns l + 1) (engineView s) = .next u) :
    ∃ t, Sys2Proof.core.run (l.length + 1) s = .next t ∧ engineView t = engineView u := by
  induction l generalizing s with
  | nil =>
    obtain ⟨v, hv, hvu⟩ := run_succ_next hu
    cases hvu
    obtain ⟨hview, t, ht, htv, -⟩ := step_engine_interleaved hr hs hv
    exact ⟨t, run_one ht, htv.trans hview.symm⟩
  | cons x l ih =>
    have hl' : ∀ x ∈ l, engineOrHost x = true := fun y hy => hl y (List.mem_cons_of_mem x hy)
    cases x with
    | engine =>
      rw [engineTurns_engine] at hb hu
      obtain ⟨v, hv, hvu⟩ := run_succ_next hu
      obtain ⟨-, t, ht, rfl, hrt, hst⟩ := step_engine_interleaved hr hs hv
      obtain ⟨w, hw, hwu⟩ := ih hrt hst hl' (hb.tail hv) hvu
      exact ⟨w, (run_succ _ ht).trans hw, hwu⟩
    | host tw =>
      rw [engineTurns_host] at hb hu
      obtain ⟨t, ht, hview, hrt, hst⟩ := step_host_interleaved hr hs hb.busy
      rw [← hview] at hb hu
      obtain ⟨w, hw, hwu⟩ := ih hrt hst hl' hb hu
      exact ⟨w, (run_succ _ ht).trans hw, hwu⟩
    | message | reset => exact absurd (hl _ List.mem_cons_self) Bool.false_ne_true

/-- Settles O59: by induction on the queue, with the engine's view of the state kept in step with the engine alone. -/
theorem interleavingDoesNotMatter : Obligations.InterleavingDoesNotMatter :=
  fun _ _ _ hr hl hb hu => interleaved_run hr rfl hl hb hu

end Sys2Proof.Machine
end

section
/-! One pass over a block (`42_compression.md` section 4): the schedule word by word, the rounds one by one, and the 162
steps from (LDW, 0) that replace `H` by `compress(H, BLK)`. -/

namespace Sys2Proof.Machine

open Sys2Proof Sys2Proof.Safety

/-! ### The reference's folds, one step at a time -/

theorem foldl_range_succ {α : Type} (f : α → Nat → α) (a : α) (n : Nat) :
    (List.range (n + 1)).foldl f a = f ((List.range n).foldl f a) n := by
  rw [List.range_succ, List.foldl_append, List.foldl_cons, List.foldl_nil]

theorem foldl_finRange {α : Type} (f : α → Nat → α) (a : α) (n : Nat) :
    (List.finRange n).foldl (fun a i => f a i.val) a = (List.range n).foldl f a := by
  rw [← List.map_coe_finRange_eq_range, List.foldl_map]

/-- One word of the schedule is written. -/
def scheduleStep (blk : Vector Byte 64) (w : Vector Word 80) (n : Nat) : Vector Word 80 :=
  if h : n < 80 then
    w.set n (if h16 : n < 16 then loadedWord blk n h16 else expandedWord w n h) h
  else w

/-- The first `n` words of the schedule are written over `w`. -/
def scheduleUpTo (blk : Vector Byte 64) (w : Vector Word 80) (n : Nat) : Vector Word 80 :=
  (List.range n).foldl (scheduleStep blk) w

theorem scheduleUpTo_succ (blk : Vector Byte 64) (w : Vector Word 80) (n : Nat) :
    scheduleUpTo blk w (n + 1) = scheduleStep blk (scheduleUpTo blk w n) n := foldl_range_succ ..

theorem scheduleOf_eq (blk : Vector Byte 64) : scheduleOf blk = scheduleUpTo blk (Vector.replicate 80 0) 80 := by
  rw [scheduleUpTo, ← foldl_finRange, scheduleOf]
  congr 1
  funext w t
  exact (dif_pos t.isLt).symm

theorem scheduleStep_load {blk : Vector Byte 64} {w : Vector Word 80} {n : Nat} (h : n < 16) :
    scheduleStep blk w n = w.set n (loadedWord blk n h) (by omega) := by
  rw [scheduleStep, dif_pos (show n < 80 by omega), dif_pos h]

theorem scheduleStep_expand {blk : Vector Byte 64} {w : Vector Word 80} {n : Nat} (hge : 16 ≤ n) (h : n < 80) :
    scheduleStep blk w n = w.set n (expandedWord w n h) h := by
  rw [scheduleStep, dif_pos h, dif_neg (Nat.not_lt.mpr hge)]

theorem expandedWord_congr {w w' : Vector Word 80} {n : Nat} (hge : 16 ≤ n) (h : n < 80)
    (hw : ∀ i (hi : i < 80), i < n → w[i] = w'[i]) : expandedWord w n h = expandedWord w' n h := by
  unfold expandedWord
  rw [hw (n - 3) (by omega) (by omega), hw (n - 8) (by omega) (by omega), hw (n - 14) (by omega) (by omega),
    hw (n - 16) (by omega) (by omega)]

/-- A written word does not depend on what the schedule held before. -/
theorem scheduleUpTo_getElem_congr (blk : Vector Byte 64) (w w' : Vector Word 80) {n : Nat} (hn : n ≤ 80) :
    ∀ i (hi : i < 80), i < n → (scheduleUpTo blk w n)[i] = (scheduleUpTo blk w' n)[i] := by
  induction n with
  | zero => intro i _ hlt; omega
  | succ n ih =>
    intro i hi hlt
    have hbefore := ih (by omega)
    rw [scheduleUpTo_succ, scheduleUpTo_succ]
    obtain h16 | h16 := Nat.lt_or_ge n 16
    · simp only [scheduleStep_load h16, Vector.getElem_set]
      split
      · rfl
      · exact hbefore i hi (by omega)
    · simp only [scheduleStep_expand h16 (show n < 80 by omega), Vector.getElem_set]
      split
      · exact expandedWord_congr h16 _ hbefore
      · exact hbefore i hi (by omega)

/-- After 80 words the schedule is the block's alone. -/
theorem scheduleUpTo_eq_scheduleOf (blk : Vector Byte 64) (w : Vector Word 80) :
    scheduleUpTo blk w 80 = scheduleOf blk := by
  rw [scheduleOf_eq]
  exact Vector.ext fun i hi => scheduleUpTo_getElem_congr blk w _ (Nat.le_refl 80) i hi hi

/-- One round. -/
def roundStep (w : Vector Word 80) (v : Working) (n : Nat) : Working := if h : n < 80 then roundOf n w[n] v else v

/-- The first `n` rounds. -/
def roundsUpTo (w : Vector Word 80) (v : Working) (n : Nat) : Working := (List.range n).foldl (roundStep w) v

theorem roundsUpTo_succ (w : Vector Word 80) (v : Working) (n : Nat) :
    roundsUpTo w v (n + 1) = roundStep w (roundsUpTo w v n) n := foldl_range_succ ..

theorem roundsOf_eq (w : Vector Word 80) (v : Working) : roundsOf w v = roundsUpTo w v 80 := by
  rw [roundsUpTo, ← foldl_finRange, roundsOf]
  congr 1
  funext v t
  rw [roundStep, dif_pos t.isLt]
  rfl

/-! ### Runs that stay busy on one block -/

/-- `n` steps lead from `s` to `t`, the states before the last of them busy with `BLKCNT = c`. -/
inductive BusyRun (c : Word) (s : State) : Nat → State → Prop where
  | nil : BusyRun c s 0 s
  | snoc {n : Nat} {t u : State} (before : BusyRun c s n t) (busy : busy t = true) (count : t.blkcnt = c)
      (last : step t = .next u) : BusyRun c s (n + 1) u

theorem BusyRun.run {c : Word} {s t : State} {n : Nat} (h : BusyRun c s n t) : Sys2Proof.core.run n s = .next t := by
  induction h with
  | nil => rfl
  | snoc _ _ _ last ih => exact run_append ih (run_one last)

/-- Runs join. -/
theorem BusyRun.trans {c : Word} {s t u : State} {j k : Nat} (h : BusyRun c s j t) (h' : BusyRun c t k u) :
    BusyRun c s (j + k) u := by
  induction h' with
  | nil => exact h
  | snoc _ busy count last ih => exact ih.snoc busy count last

theorem BusyRun.one {c : Word} {s t : State} (hb : busy s = true) (hc : s.blkcnt = c) (h : step s = .next t) :
    BusyRun c s 1 t := BusyRun.nil.snoc hb hc h

/-- Every state before the last is busy on the same block. -/
theorem BusyRun.before_last {c : Word} {s t : State} {n : Nat} (h : BusyRun c s n t) {j : Nat} (hj : j < n) :
    ∃ u, Sys2Proof.core.run j s = .next u ∧ busy u = true ∧ u.blkcnt = c := by
  induction h with
  | nil => omega
  | @snoc n t _ before busy count _ ih =>
    obtain hlt | rfl := Nat.lt_succ_iff_lt_or_eq.mp hj
    · exact ih hlt
    · exact ⟨t, before.run, busy, count⟩

/-! ### The steps of a pass -/

/-- The engine moves undisturbed: `rst` is released and nothing is queued. -/
structure Free (s : State) : Prop where
  released : s.rst = false
  empty : s.agenda = []

/-- A free engine's step is its control word's instruction. -/
theorem Free.step_eq {s : State} {i : Instr} (h : Free s) (hd : decodeControl? (controlWord s) = some i) :
    step s = exec i s := by
  rw [step_engine h.released (nextTurn_nil h.empty) (decodeControl_eq_ok.mpr hd), takeTurn_nil h.empty]

/-- The index of a phase's `n`-th step, 0 after the last. -/
def passIndex (n : Nat) : Index := if n < 80 then BitVec.ofNat 7 n else 0

theorem passIndex_toNat {t : Index} (h : t.toNat < 80) : passIndex t.toNat = t := by
  rw [passIndex, if_pos h, BitVec.ofNat_toNat, BitVec.setWidth_eq]

theorem passIndex_succ {t : Index} (h : t.toNat < 80) :
    passIndex (t.toNat + 1) = if t.toNat < 79 then t + 1 else 0 := by
  split
  · rw [← toNat_succ_of_lt ‹_›, passIndex_toNat]
    rw [toNat_succ_of_lt ‹_›]
    omega
  · exact if_neg (by omega)

/-- `LDW` for the first 16 words, `EXP` for the others, then `SEED`. -/
def schedulePhase (n : Nat) : PhaseCode := if n < 16 then phaseLdw else if n < 80 then phaseExp else phaseSeed

theorem schedulePhase_load {n : Nat} (h : n < 16) : schedulePhase n = phaseLdw := if_pos h

theorem schedulePhase_expand {n : Nat} (hge : 16 ≤ n) (h : n < 80) : schedulePhase n = phaseExp := by
  rw [schedulePhase, if_neg (Nat.not_lt.mpr hge), if_pos h]

/-- `s` with the schedule `w`, before its `n`-th word is written. -/
def inSchedule (s : State) (w : Vector Word 80) (n : Nat) : State :=
  { s with w := w, phase := schedulePhase n, t := passIndex n }

theorem inSchedule_free {s : State} (hs : Free s) (w : Vector Word 80) (n : Nat) : Free (inSchedule s w n) :=
  ⟨hs.released, hs.empty⟩

theorem inSchedule_busy (s : State) (w : Vector Word 80) (n : Nat) : busy (inSchedule s w n) = true := by
  change busyPhase (schedulePhase n) = true
  unfold schedulePhase
  split
  · rfl
  · split <;> rfl

theorem controlWord_inSchedule (s : State) (w : Vector Word 80) {t : Index} (ht : t.toNat < 80) :
    controlWord (inSchedule s w t.toNat) = mkControlWord (schedulePhase t.toNat) t := by
  change mkControlWord (schedulePhase t.toNat) (passIndex t.toNat) = _
  rw [passIndex_toNat ht]

/-- The control word after `LDW t` is that before word `t + 1`. -/
theorem pc_after_ldw {t : Index} (h : t.toNat < 16) :
    (if t.toNat < 15 then phaseLdw else phaseExp) = schedulePhase (t.toNat + 1) ∧
      (if t.toNat < 15 then t + 1 else 16) = passIndex (t.toNat + 1) := by
  obtain hlt | heq := Nat.lt_or_eq_of_le (Nat.le_of_lt_succ h)
  · rw [if_pos hlt, if_pos hlt, schedulePhase_load (by omega), passIndex_succ (by omega), if_pos (by omega)]
    exact ⟨rfl, rfl⟩
  · rw [heq]
    exact ⟨rfl, rfl⟩

/-- The control word after `EXP t` is that before word `t + 1`, or that of `SEED`. -/
theorem pc_after_exp {t : Index} (hge : 16 ≤ t.toNat) (h : t.toNat < 80) :
    (if t.toNat < 79 then phaseExp else phaseSeed) = schedulePhase (t.toNat + 1) ∧
      (if t.toNat < 79 then t + 1 else 0) = passIndex (t.toNat + 1) := by
  refine ⟨?_, (passIndex_succ h).symm⟩
  obtain hlt | heq := Nat.lt_or_eq_of_le (Nat.le_of_lt_succ h)
  · rw [if_pos hlt, schedulePhase_expand (by omega) (by omega)]
  · rw [heq]
    rfl

theorem step_ldw {s : State} (hs : Free s) (w : Vector Word 80) {t : Index} (ht : t.toNat < 16) :
    step (inSchedule s w t.toNat) = .next (inSchedule s (scheduleStep s.blk w t.toNat) (t.toNat + 1)) := by
  have hd : decodeControl? (controlWord (inSchedule s w t.toNat)) = some (.ldw t) := by
    rw [controlWord_inSchedule s w (by omega), schedulePhase_load ht, decodeControl?_ldw,
      if_pos (indexIn_iff.mpr ⟨Nat.zero_le _, by omega⟩)]
  obtain ⟨-, hexec⟩ := ldwLoadsBigEndianWord t (inSchedule s w t.toNat) (by omega)
  obtain ⟨hphase, hindex⟩ := pc_after_ldw ht
  rw [(inSchedule_free hs w _).step_eq hd, hexec, hphase, hindex, scheduleStep_load ht]
  rfl

theorem step_exp {s : State} (hs : Free s) (w : Vector Word 80) {t : Index} (hge : 16 ≤ t.toNat) (ht : t.toNat < 80) :
    step (inSchedule s w t.toNat) = .next (inSchedule s (scheduleStep s.blk w t.toNat) (t.toNat + 1)) := by
  have hd : decodeControl? (controlWord (inSchedule s w t.toNat)) = some (.exp t) := by
    rw [controlWord_inSchedule s w ht, schedulePhase_expand hge ht, decodeControl?_exp,
      if_pos (indexIn_iff.mpr ⟨hge, by omega⟩)]
  obtain ⟨-, hexec⟩ := expExpandsSchedule t (inSchedule s w t.toNat) hge (by omega)
  obtain ⟨hphase, hindex⟩ := pc_after_exp hge ht
  rw [(inSchedule_free hs w _).step_eq hd, hexec, hphase, hindex, scheduleStep_expand hge ht]
  rfl

theorem toNat_ofNat_index {n : Nat} (h : n < 80) : (BitVec.ofNat 7 n : Index).toNat = n := by
  rw [BitVec.toNat_ofNat, Nat.mod_eq_of_lt (by omega)]

/-- One step writes one word of the schedule. -/
theorem step_inSchedule {s : State} (hs : Free s) (w : Vector Word 80) {n : Nat} (hn : n < 80) :
    step (inSchedule s w n) = .next (inSchedule s (scheduleStep s.blk w n) (n + 1)) := by
  have ht := toNat_ofNat_index hn
  obtain hlt | hge := Nat.lt_or_ge n 16
  · have h := step_ldw hs w (t := BitVec.ofNat 7 n) (by rwa [ht])
    rwa [ht] at h
  · have h := step_exp hs w (t := BitVec.ofNat 7 n) (by rwa [ht]) (by rwa [ht])
    rwa [ht] at h

/-- The schedule takes 80 steps. -/
theorem schedule_run {s : State} (hs : Free s) (w : Vector Word 80) {n : Nat} (hn : n ≤ 80) :
    BusyRun s.blkcnt (inSchedule s w 0) n (inSchedule s (scheduleUpTo s.blk w n) n) := by
  induction n with
  | zero => exact .nil
  | succ n ih =>
    rw [scheduleUpTo_succ]
    exact (ih (by omega)).snoc (inSchedule_busy ..) rfl (step_inSchedule hs _ (by omega))

/-! ### The rounds -/

theorem roundFunction_ch {n : Nat} (h : n ≤ 19) (b c d : Word) : roundFunction n b c d = fCh b c d :=
  if_pos (by omega)

theorem roundFunction_p1 {n : Nat} (hge : 20 ≤ n) (h : n ≤ 39) (b c d : Word) : roundFunction n b c d = fP1 b c d := by
  rw [roundFunction, if_neg (by omega), if_pos (by omega), fP1]

theorem roundFunction_maj {n : Nat} (hge : 40 ≤ n) (h : n ≤ 59) (b c d : Word) :
    roundFunction n b c d = fMaj b c d := by
  rw [roundFunction, if_neg (by omega), if_neg (by omega), if_pos (by omega), fMaj]

theorem roundFunction_p2 {n : Nat} (hge : 60 ≤ n) (b c d : Word) : roundFunction n b c d = fP2 b c d := by
  rw [roundFunction, if_neg (by omega), if_neg (by omega), if_neg (by omega), fP2]

theorem roundConstant_k0 {n : Nat} (h : n ≤ 19) : roundConstant n = k0 := if_pos (by omega)

theorem roundConstant_k1 {n : Nat} (hge : 20 ≤ n) (h : n ≤ 39) : roundConstant n = k1 := by
  rw [roundConstant, if_neg (by omega), if_pos (by omega), k1]

theorem roundConstant_k2 {n : Nat} (hge : 40 ≤ n) (h : n ≤ 59) : roundConstant n = k2 := by
  rw [roundConstant, if_neg (by omega), if_neg (by omega), if_pos (by omega), k2]

theorem roundConstant_k3 {n : Nat} (hge : 60 ≤ n) : roundConstant n = k3 := by
  rw [roundConstant, if_neg (by omega), if_neg (by omega), if_neg (by omega), k3]

/-- Round `t` of the machine is the common update with the reference's function and constant. -/
theorem round_of_reference {t : Index} (ht : t.toNat < 80) (s : State) : ∃ i, decodeRound t = some i ∧
    exec i s = .next (roundUpdate (roundFunction t.toNat s.b s.c s.d) (roundConstant t.toNat) t s) := by
  have hrange : t.toNat ≤ 19 ∨ (20 ≤ t.toNat ∧ t.toNat ≤ 39) ∨ (40 ≤ t.toNat ∧ t.toNat ≤ 59) ∨
      (60 ≤ t.toNat ∧ t.toNat ≤ 79) := by omega
  obtain hle | ⟨hge, hle⟩ | ⟨hge, hle⟩ | ⟨hge, hle⟩ := hrange
  · rw [roundFunction_ch hle, roundConstant_k0 hle]
    exact ⟨_, decodeRound_rndCh hle, exec_rndCh s hle⟩
  · rw [roundFunction_p1 hge hle, roundConstant_k1 hge hle]
    exact ⟨_, decodeRound_rndP1 hge hle, exec_rndP1 s hge hle⟩
  · rw [roundFunction_maj hge hle, roundConstant_k2 hge hle]
    exact ⟨_, decodeRound_rndMaj hge hle, exec_rndMaj s hge hle⟩
  · rw [roundFunction_p2 hge, roundConstant_k3 hge]
    exact ⟨_, decodeRound_rndP2 hge hle, exec_rndP2 s hge hle⟩

/-- `RND` for the 80 rounds, then `ADDH`. -/
def roundPhase (n : Nat) : PhaseCode := if n < 80 then phaseRnd else phaseAddh

/-- `s` with the working values `v`, before round `n`. -/
def inRound (s : State) (v : Working) (n : Nat) : State :=
  { s with a := v.a, b := v.b, c := v.c, d := v.d, e := v.e, phase := roundPhase n, t := passIndex n }

theorem inRound_free {s : State} (hs : Free s) (v : Working) (n : Nat) : Free (inRound s v n) :=
  ⟨hs.released, hs.empty⟩

theorem inRound_busy (s : State) (v : Working) (n : Nat) : busy (inRound s v n) = true := by
  change busyPhase (roundPhase n) = true
  unfold roundPhase
  split <;> rfl

/-- The phase after round `t`. -/
theorem roundPhase_succ {n : Nat} (h : n < 80) : (if n < 79 then phaseRnd else phaseAddh) = roundPhase (n + 1) := by
  obtain hlt | rfl := Nat.lt_or_eq_of_le (Nat.le_of_lt_succ h)
  · rw [if_pos hlt, roundPhase, if_pos (by omega)]
  · rfl

theorem step_rnd {s : State} (hs : Free s) (v : Working) {t : Index} (ht : t.toNat < 80) :
    step (inRound s v t.toNat) = .next (inRound s (roundStep s.w v t.toNat) (t.toNat + 1)) := by
  obtain ⟨i, hi, hexec⟩ := round_of_reference ht (inRound s v t.toNat)
  have hd : decodeControl? (controlWord (inRound s v t.toNat)) = some i := by
    change decodeControl? (mkControlWord (roundPhase t.toNat) (passIndex t.toNat)) = some i
    rw [passIndex_toNat ht, roundPhase, if_pos ht, decodeControl?_rnd, hi]
  rw [(inRound_free hs v _).step_eq hd, hexec, roundUpdate_eq_fields _ _ (by omega), roundPhase_succ ht,
    ← passIndex_succ ht, roundStep, dif_pos ht]
  rfl

/-- One step is one round. -/
theorem step_inRound {s : State} (hs : Free s) (v : Working) {n : Nat} (hn : n < 80) :
    step (inRound s v n) = .next (inRound s (roundStep s.w v n) (n + 1)) := by
  have ht := toNat_ofNat_index hn
  have h := step_rnd hs v (t := BitVec.ofNat 7 n) (by rwa [ht])
  rwa [ht] at h

/-- The rounds take 80 steps. -/
theorem rounds_run {s : State} (hs : Free s) (v : Working) {n : Nat} (hn : n ≤ 80) :
    BusyRun s.blkcnt (inRound s v 0) n (inRound s (roundsUpTo s.w v n) n) := by
  induction n with
  | zero => exact .nil
  | succ n ih =>
    rw [roundsUpTo_succ]
    exact (ih (by omega)).snoc (inRound_busy ..) rfl (step_inRound hs _ (by omega))

/-! ### The whole pass -/

/-- `SEED` after the last word of the schedule. -/
theorem step_seed {s : State} (hs : Free s) (w : Vector Word 80) :
    step (inSchedule s w 80) = .next (inRound { s with w := w } (seeded s.h) 0) := by
  obtain ⟨-, hexec⟩ := seedCopiesHash
  rw [(inSchedule_free hs w 80).step_eq (decodeControl?_seed 0), hexec]
  rfl

/-- The state after `ADDH`, `v` being the working values of the block. -/
def accumulated (s : State) (v : Working) : State :=
  { s with
    h := addWorking s.h v, a := v.a, b := v.b, c := v.c, d := v.d, e := v.e, blkcnt := s.blkcnt + 1
    phase := if s.finalFlag then phaseDone else phasePad, t := 0 }

theorem accumulated_h (s : State) (v : Working) : (accumulated s v).h = addWorking s.h v := rfl

/-- `ADDH` after the last round. -/
theorem step_addh {s : State} (hs : Free s) (v : Working) : step (inRound s v 80) = .next (accumulated s v) := by
  obtain ⟨-, hexec⟩ := addhAccumulatesHash
  rw [(inRound_free hs v 80).step_eq (decodeControl?_addh 0), hexec]
  rfl

/-- The state after one pass over a block. -/
def compressed (s : State) : State :=
  accumulated { s with w := scheduleOf s.blk } (roundsOf (scheduleOf s.blk) (seeded s.h))

@[simp] theorem compressed_h (s : State) : (compressed s).h = compress s.h s.blk := by
  rw [compressed, accumulated_h, compress]
@[simp] theorem compressed_blkcnt (s : State) : (compressed s).blkcnt = s.blkcnt + 1 := rfl
@[simp] theorem compressed_phase (s : State) :
    (compressed s).phase = if s.finalFlag then phaseDone else phasePad := rfl
@[simp] theorem compressed_t (s : State) : (compressed s).t = 0 := rfl
@[simp] theorem compressed_blk (s : State) : (compressed s).blk = s.blk := rfl
@[simp] theorem compressed_len (s : State) : (compressed s).len = s.len := rfl
@[simp] theorem compressed_rem (s : State) : (compressed s).rem = s.rem := rfl
@[simp] theorem compressed_off (s : State) : (compressed s).off = s.off := rfl
@[simp] theorem compressed_finalFlag (s : State) : (compressed s).finalFlag = s.finalFlag := rfl
@[simp] theorem compressed_msg (s : State) : (compressed s).msg = s.msg := rfl

theorem compressed_free {s : State} (hs : Free s) : Free (compressed s) := ⟨hs.released, hs.empty⟩

/-- `SEED`, 80 rounds that give `v`, `ADDH`. -/
theorem rounds_pass {s : State} (hs : Free s) {w : Vector Word 80} {v : Working} (hv : roundsUpTo w (seeded s.h) 80 = v) :
    BusyRun s.blkcnt (inSchedule s w 80) 82 (accumulated { s with w := w } v) := by
  have hw : Free { s with w := w } := ⟨hs.released, hs.empty⟩
  have hseed : BusyRun s.blkcnt (inSchedule s w 80) 1 (inRound { s with w := w } (seeded s.h) 0) :=
    .one (inSchedule_busy ..) rfl (step_seed hs w)
  have hrounds : BusyRun s.blkcnt (inRound { s with w := w } (seeded s.h) 0) 80
      (inRound { s with w := w } (roundsUpTo w (seeded s.h) 80) 80) := rounds_run hw (seeded s.h) (Nat.le_refl 80)
  rw [hv] at hrounds
  exact (hseed.trans hrounds).snoc (inRound_busy ..) rfl (step_addh hw v)

/-- 80 steps for the schedule before that. -/
theorem block_pass {s : State} (hs : Free s) (hp : s.phase = phaseLdw) (ht : s.t = 0) :
    BusyRun s.blkcnt s 162 (compressed s) := by
  have hstart : inSchedule s s.w 0 = s := by
    change { s with phase := phaseLdw, t := 0 } = s
    rw [← hp, ← ht]
  have hschedule := schedule_run hs s.w (Nat.le_refl 80)
  rw [hstart, scheduleUpTo_eq_scheduleOf] at hschedule
  exact hschedule.trans (rounds_pass hs (roundsOf_eq _ _).symm)

/-- Settles O56: the pass ends in `compressed s`, whose fields the statement names. -/
theorem blockPassCompresses : Obligations.BlockPassCompresses := by
  intro s hp ht hr ha
  exact ⟨compressed s, (block_pass ⟨hr, ha⟩ hp ht).run, compressed_h s, compressed_blkcnt s, compressed_phase s,
    compressed_t s, compressed_blk s, compressed_len s, compressed_rem s, compressed_off s, compressed_finalFlag s,
    compressed_msg s, hr, ha⟩

end Sys2Proof.Machine
end

section
/-! The padded message (`00_scope.md` R16, `40_padding.md` R128): block by block, what `PAD` writes is the reference's block. -/

namespace Sys2Proof.Machine

open Sys2Proof Sys2Proof.Safety

/-! ### The reference's bytes -/

section
variable {m : Nat → Byte} {l i k : Nat}

theorem paddedByte_message {j : Nat} (h : j < l) : paddedByte m l j = m j := if_pos h

theorem paddedByte_terminator {j : Nat} (h : j = l) : paddedByte m l j = 0x80 := by
  rw [paddedByte, if_neg (by omega), if_pos h]

theorem paddedByte_zero {j : Nat} (h : l < j) (hj : j + 8 < 64 * blocksNeeded l) : paddedByte m l j = 0 := by
  rw [paddedByte, if_neg (by omega), if_neg (by omega), if_pos hj]

/-- The last eight bytes of the last block. -/
theorem paddedByte_length (hlast : blocksNeeded l = i + 1) (hl : l < 64 * i + k) (hge : 56 ≤ k) :
    paddedByte m l (64 * i + k) = BitVec.ofNat 8 (8 * l / 256 ^ (63 - k)) := by
  have hexp : 64 * (i + 1) - 1 - (64 * i + k) = 63 - k := by omega
  rw [paddedByte, if_neg (by omega), if_neg (by omega), hlast, if_neg (by omega), hexp]

/-- The upper half of the 64-bit length is 0 for an admitted length. -/
theorem paddedByte_lengthHigh (hlast : blocksNeeded l = i + 1) (hl : l < 64 * i + k) (hge : 56 ≤ k) (hlt : k < 60)
    (hadmitted : l ≤ 536870911) : paddedByte m l (64 * i + k) = 0 := by
  have hpow : 256 ^ 4 ≤ 256 ^ (63 - k) := Nat.pow_le_pow_right (by decide) (by omega)
  rw [paddedByte_length hlast hl hge, Nat.div_eq_of_lt (by omega)]
  rfl

end

/-- The lower half is the trailer. -/
theorem trailerByte_eq {len : Word} (hadmitted : len.toNat ≤ 536870911) {k : Nat} (hge : 60 ≤ k) (hlt : k < 64) :
    trailerByte len k = BitVec.ofNat 8 (8 * len.toNat / 256 ^ (63 - k)) := by
  have byte (n : Nat) : (bitLength len).extractLsb' n 8 = BitVec.ofNat 8 (8 * len.toNat / 2 ^ n) := by
    apply BitVec.eq_of_toNat_eq
    rw [BitVec.extractLsb'_toNat, BitVec.toNat_ofNat, bitLength_toNat hadmitted, Nat.shiftRight_eq_div_pow]
  obtain rfl | rfl | rfl | rfl : k = 60 ∨ k = 61 ∨ k = 62 ∨ k = 63 := by omega
  · exact byte 24
  · exact byte 16
  · exact byte 8
  · exact byte 0

/-! ### The state before each block -/

/-- After `i` blocks of the message of `len` bytes in `m`: `PAD` is next, or `HLT.DONE` after the last. -/
structure AfterBlocks (m : Memory) (len : Word) (i : Nat) (s : State) : Prop where
  free : Free s
  phase : s.phase = if s.finalFlag then phaseDone else phasePad
  index : s.t = 0
  message : s.msg = m
  length : s.len = len
  hash : s.h = hashAfter (messageByte m) len.toNat i
  count : s.blkcnt.toNat = i
  left : s.rem.toNat = len.toNat - 64 * i
  split : s.off.toNat + s.rem.toNat = len.toNat
  final : s.finalFlag = decide (i = blocksNeeded len.toNat)

section
variable {m : Memory} {len : Word} {i : Nat} {s : State}

theorem AfterBlocks.notFinal (h : AfterBlocks m len i s) (hi : i < blocksNeeded len.toNat) : s.finalFlag = false := by
  rw [h.final]
  exact decide_eq_false (by omega)

theorem AfterBlocks.phase_pad (h : AfterBlocks m len i s) (hi : i < blocksNeeded len.toNat) : s.phase = phasePad := by
  rw [h.phase, h.notFinal hi]
  rfl

/-- In a full block every byte is copied. -/
theorem AfterBlocks.byte_full (h : AfterBlocks m len i s) (hr : 64 ≤ s.rem.toNat) {k : Nat} (hk : k < 64) :
    padByteFull s k = paddedByte (messageByte m) len.toNat (64 * i + k) := by
  have hleft := h.left
  have hsplit := h.split
  rw [paddedByte_message (by omega), padByteFull, messageAt, h.message]
  congr 1
  omega

/-- A tail of 56 to 63 bytes is copied and terminated; the length goes into the block after it. -/
theorem AfterBlocks.byte_tail (h : AfterBlocks m len i s) (hge : 56 ≤ s.rem.toNat) (hlt : s.rem.toNat < 64) {k : Nat}
    (hk : k < 64) : padByteTail s k = paddedByte (messageByte m) len.toNat (64 * i + k) := by
  have hleft := h.left
  have hsplit := h.split
  have hoff : s.off.toNat = 64 * i := by omega
  obtain hcopied | hterm | hzero := Nat.lt_trichotomy k s.rem.toNat
  · rw [padByteTail_copied hcopied, paddedByte_message (by omega), h.message, hoff]
  · rw [padByteTail_terminator hterm, paddedByte_terminator (by omega)]
  · rw [padByteTail_zero hzero, paddedByte_zero (by omega) (by unfold blocksNeeded; omega)]

/-- The last block: what is left, the terminator unless the block before holds it, zeros, and the length. -/
theorem AfterBlocks.byte_last (h : AfterBlocks m len i s) (hi : i < blocksNeeded len.toNat)
    (hadmitted : len.toNat ≤ 536870911) (hr : s.rem.toNat < 56) {k : Nat} (hk : k < 64) :
    padByteLast s k = paddedByte (messageByte m) len.toNat (64 * i + k) := by
  have hleft := h.left
  have hsplit := h.split
  have hlast : blocksNeeded len.toNat = i + 1 := by unfold blocksNeeded at hi ⊢; omega
  have hneed : 64 * i ≤ len.toNat + 8 := by unfold blocksNeeded at hi; omega
  obtain hcopied | hterm | habove := Nat.lt_trichotomy k s.rem.toNat
  · have hoff : s.off.toNat = 64 * i := by omega
    rw [padByteLast_copied hcopied, paddedByte_message (by omega), h.message, hoff]
  · rw [padByteLast_terminator hterm hr, h.length]
    split
    · rw [paddedByte_terminator (by omega)]
    · rw [paddedByte_zero (by omega) (by omega)]
  · have hmessage : len.toNat < 64 * i + k := by omega
    obtain h56 | h56 := Nat.lt_or_ge k 56
    · rw [padByteLast_zero habove (by omega), paddedByte_zero hmessage (by omega)]
    · obtain h60 | h60 := Nat.lt_or_ge k 60
      · rw [padByteLast_zero habove h60, paddedByte_lengthHigh hlast hmessage h56 h60 hadmitted]
      · rw [padByteLast_trailer hr h60, h.length, trailerByte_eq hadmitted h60 hk, paddedByte_length hlast hmessage h56]

/-- `PAD` writes the next block of the padded message. -/
theorem AfterBlocks.padded_blk (h : AfterBlocks m len i s) (hi : i < blocksNeeded len.toNat)
    (hadmitted : len.toNat ≤ 536870911) : (padded s).blk = paddedBlock (messageByte m) len.toNat i := by
  have block {f : Nat → Byte} (hf : ∀ k, k < 64 → f k = paddedByte (messageByte m) len.toNat (64 * i + k)) :
      blockOf f = paddedBlock (messageByte m) len.toNat i := by
    unfold blockOf paddedBlock
    congr 1
    funext k
    exact hf k.val k.isLt
  obtain ⟨hr, hp⟩ | ⟨hge, hlt, hp⟩ | ⟨hr, hp⟩ := padded_cases s <;> rw [hp, setPadded_blk]
  · exact block fun k hk => h.byte_full hr hk
  · exact block fun k hk => h.byte_tail hge hlt hk
  · exact block fun k hk => h.byte_last hi hadmitted hr hk

end

end Sys2Proof.Machine
end

section
/-! The whole run (`43_sequencer_and_host.md` section 4): 163 steps a block, by induction on the blocks done. -/

namespace Sys2Proof.Machine

open Sys2Proof Sys2Proof.Safety

/-! ### One block -/

/-- A free engine at (PAD, 0) whose reads are answered. -/
theorem step_pad {s : State} (hs : Free s) (hp : s.phase = phasePad) (ht : s.t = 0) (hr : padReadable s = true) :
    step s = .next (padded s) := by
  have hd : decodeControl? (controlWord s) = some .pad := by
    rw [controlWord, hp, ht]
    exact decodeControl?_pad 0
  rw [hs.step_eq hd]
  exact execPad_next.mpr ⟨hr, rfl⟩

theorem hashAfter_succ (m : Nat → Byte) (l n : Nat) :
    hashAfter m l (n + 1) = compress (hashAfter m l n) (paddedBlock m l n) := foldl_range_succ ..

section
variable {m : Memory} {len : Word} {i : Nat} {s : State}

theorem AfterBlocks.padReadable (h : AfterBlocks m len i s) (hadmitted : len.toNat ≤ 536870911) :
    padReadable s = true := by
  have hsplit := h.split
  have hcount := padCount_le s.rem
  exact (padReadable_iff s).mpr fun k hk => by omega

/-- `PAD` and one pass do one block more. -/
theorem AfterBlocks.next (h : AfterBlocks m len i s) (hi : i < blocksNeeded len.toNat)
    (hadmitted : len.toNat ≤ 536870911) : AfterBlocks m len (i + 1) (compressed (padded s)) := by
  have hleft := h.left
  have hsplit := h.split
  have hcount := h.count
  obtain ⟨hrem, hoff, hfinal⟩ := padded_toNat (s := s) (by omega)
  have hi' : 64 * (i + 1) ≤ len.toNat + 72 := by unfold blocksNeeded at hi; omega
  refine
    { free := compressed_free ⟨(padded_rst s).trans h.free.released, (padded_agenda s).trans h.free.empty⟩
      phase := compressed_phase _
      index := compressed_t _
      message := (padded_msg s).trans h.message
      length := (padded_len s).trans h.length
      hash := ?hash
      count := ?count
      left := ?left
      split := hoff.trans hsplit
      final := ?final }
  case hash => rw [compressed_h, padded_h, h.hash, h.padded_blk hi hadmitted, hashAfter_succ]
  case count =>
    rw [compressed_blkcnt, padded_blkcnt, ← hcount]
    exact BitVec.toNat_add_of_lt (y := 1) (show s.blkcnt.toNat + 1 < 2 ^ 32 by omega)
  case left => rw [compressed_rem, hrem]; omega
  case final =>
    rw [compressed_finalFlag, hfinal, decide_eq_decide]
    unfold blocksNeeded at hi ⊢
    omega

/-- The 163 steps of one block, busy all the way. -/
theorem AfterBlocks.block_run (h : AfterBlocks m len i s) (hi : i < blocksNeeded len.toNat)
    (hadmitted : len.toNat ≤ 536870911) : BusyRun s.blkcnt s 163 (compressed (padded s)) := by
  have hphase := h.phase_pad hi
  have hpad : BusyRun s.blkcnt s 1 (padded s) :=
    .one (busy_of_phase hphase rfl) rfl (step_pad h.free hphase h.index (h.padReadable hadmitted))
  have hfree : Free (padded s) := ⟨(padded_rst s).trans h.free.released, (padded_agenda s).trans h.free.empty⟩
  have hpass := block_pass hfree (padded_phase s) (padded_t s)
  rw [padded_blkcnt] at hpass
  exact hpad.trans hpass

end

/-! ### All the blocks -/

/-- A state in which a `START` is about to be accepted. -/
structure AboutToStart (s : State) : Prop where
  idle : busy s = false
  released : s.rst = false
  queued : s.agenda = [.host startWord]

section
variable {s : State}

theorem AboutToStart.step_eq (h : AboutToStart s) : step s = exec .start { s with agenda := [] } := by
  have hstart : decodeHost startWord = .start := by decide
  rw [step_host h.released (nextTurn_cons h.queued), hstart, takeTurn_eq h.queued]

/-- An accepted `START` leaves no block done. -/
theorem AboutToStart.started (h : AboutToStart s) (hadmitted : s.len.toNat ≤ 536870911) :
    ∃ t, step s = .next t ∧ AfterBlocks s.msg s.len 0 t := by
  refine ⟨_, h.step_eq.trans (exec_start_run (s := { s with agenda := [] }) h.idle hadmitted), ?_⟩
  have hsome : ¬ 0 = blocksNeeded s.len.toNat := by unfold blocksNeeded; omega
  exact
    { free := ⟨h.released, rfl⟩
      phase := rfl
      index := rfl
      message := rfl
      length := rfl
      hash := ivWords_eq_initialHash
      count := rfl
      left := rfl
      split := Nat.zero_add _
      final := (decide_eq_false hsome).symm }

/-- After 163 steps a block, the blocks so far are done. -/
theorem AboutToStart.blocks_run (h : AboutToStart s) (hadmitted : s.len.toNat ≤ 536870911) {i : Nat}
    (hi : i ≤ blocksNeeded s.len.toNat) :
    ∃ t, Sys2Proof.core.run (1 + 163 * i) s = .next t ∧ AfterBlocks s.msg s.len i t := by
  induction i with
  | zero =>
    obtain ⟨t, ht, hblocks⟩ := h.started hadmitted
    exact ⟨t, run_one ht, hblocks⟩
  | succ i ih =>
    obtain ⟨t, ht, hblocks⟩ := ih (by omega)
    rw [Nat.mul_succ, ← Nat.add_assoc]
    exact ⟨_, run_append ht (hblocks.block_run hi hadmitted).run, hblocks.next hi hadmitted⟩

/-- After the last block the machine is done. -/
theorem AboutToStart.whole_run (h : AboutToStart s) (hadmitted : s.len.toNat ≤ 536870911) :
    ∃ t, Sys2Proof.core.run (1 + 163 * blocksNeeded s.len.toNat) s = .next t ∧ done t = true ∧
      t.h = sha1 (messageByte s.msg) s.len.toNat ∧ t.blkcnt.toNat = blocksNeeded s.len.toNat ∧ t.len = s.len := by
  obtain ⟨t, ht, hblocks⟩ := h.blocks_run hadmitted (Nat.le_refl _)
  have hfinal : t.finalFlag = true := hblocks.final.trans (decide_eq_true rfl)
  have hdone : t.phase = phaseDone := by rw [hblocks.phase, hfinal]; rfl
  exact ⟨t, ht, done_iff.mpr hdone, hblocks.hash, hblocks.count, hblocks.length⟩

end

/-- Settles O57: the state after the last block holds the reference's digest; a refused `START` leaves `H` alone. -/
theorem runComputesSha1 : Obligations.RunComputesSha1 := by
  intro s hb hr ha
  have h : AboutToStart s := ⟨hb, hr, ha⟩
  refine ⟨fun hadmitted => ?_, fun hl => ?_⟩
  · obtain ⟨t, ht, hdone, hhash, -⟩ := h.whole_run hadmitted
    exact ⟨t, ht, hdone, hhash⟩
  · exact ⟨_, run_one (h.step_eq.trans (exec_start_refused (s := { s with agenda := [] }) hb hl)), rfl, rfl, rfl⟩

/-- Settles O58: step `k` of the run lies in block `k / 163`, before the last of its 163 steps. -/
theorem runLengthIsExact : Obligations.RunLengthIsExact := by
  intro s hb hr ha hadmitted
  have h : AboutToStart s := ⟨hb, hr, ha⟩
  refine ⟨fun k hk => ?_, ?_⟩
  · have hi : k / 163 < blocksNeeded s.len.toNat := Nat.div_lt_of_lt_mul hk
    obtain ⟨t, ht, hblocks⟩ := h.blocks_run hadmitted hi.le
    obtain ⟨u, hu, hbusy, hcount⟩ :=
      (hblocks.block_run hi hadmitted).before_last (Nat.mod_lt k (by decide : 163 > 0))
    have hk' : 1 + k = 1 + 163 * (k / 163) + k % 163 := by omega
    rw [hk']
    exact ⟨u, run_append ht hu, hbusy, by rw [hcount, hblocks.count]⟩
  · obtain ⟨t, ht, hdone, -, hcount, hlen⟩ := h.whole_run hadmitted
    exact ⟨t, ht, hdone, hcount, hlen⟩

/-! ### Re-use -/

theorem paddedByte_congr {m m' : Nat → Byte} {l : Nat} (h : ∀ off, off < l → m off = m' off) (j : Nat) :
    paddedByte m l j = paddedByte m' l j := by
  unfold paddedByte
  split
  · exact h j ‹_›
  · rfl

/-- The digest depends on the message's own bytes only. -/
theorem sha1_congr {m m' : Nat → Byte} {l : Nat} (h : ∀ off, off < l → m off = m' off) : sha1 m l = sha1 m' l := by
  have hblock : paddedBlock m l = paddedBlock m' l := by
    funext i
    unfold paddedBlock
    simp only [paddedByte_congr h]
  unfold sha1 hashAfter
  rw [hblock]

/-- Settles O60: both runs end in the reference's digest and count, which agree. -/
theorem reuseGivesSameDigest : Obligations.ReuseGivesSameDigest := by
  intro s s' hb hb' hr hr' ha ha' hlen hadmitted hm
  obtain ⟨t, ht, hdone, hhash, hcount, -⟩ := AboutToStart.whole_run ⟨hb, hr, ha⟩ hadmitted
  obtain ⟨t', ht', hdone', hhash', hcount', -⟩ := AboutToStart.whole_run ⟨hb', hr', ha'⟩ (hlen ▸ hadmitted)
  rw [← hlen] at ht' hhash' hcount'
  exact ⟨t, t', ht, ht', hdone, hdone', by rw [hhash, hhash', sha1_congr hm],
    BitVec.eq_of_toNat_eq (hcount.trans hcount'.symm)⟩

end Sys2Proof.Machine
end
